-- ==== Sys2Proof/Word.lean ====
section
/-! DEFINITION. The word types of the FX-2140: bytes, module addresses, and the wrapping
numbers the spec counts with. -/

namespace Sys2Proof

/-- One byte of a packet, a journal line or a management frame (R207). -/
abbrev Byte := BitVec 8

/-- A 40-bit module byte address (00_scope.md 4). -/
abbrev Addr := BitVec 40

/-- The 32-bit numbers compared by their difference (R4): intake numbers, serials, epochs,
generations and pass-send counts. -/
abbrev Num32 := BitVec 32

/-- A 48-bit journal position (R72, R73). -/
abbrev Pos := BitVec 48

/-- A 12-bit link sequence number (R153). -/
abbrev Seq := BitVec 12

/-- A requester's 6-bit tag (chapter 11). -/
abbrev UTag := BitVec 6

/-- A 16-bit group signature (R32). -/
abbrev Sig := BitVec 16

end Sys2Proof
end

