-- ==== Sys2Proof/Config.lean ====
section
/-! DEFINITION. The figures the FX-2140 is built with (00_scope.md 4), and the one value the spec
leaves open: the tag byte of a lower-link write (log 36). -/

namespace Sys2Proof.Config

/-- Bytes in a line (00_scope.md 3). -/
def lineBytes : Nat := 64
/-- Bytes in a staging data unit (R48). -/
def unitBytes : Nat := 16
/-- Streams (R23). -/
def streams : Nat := 8
/-- Group table records (R25). -/
def groupRecords : Nat := 16
/-- Members per group (R27, R30). -/
def maxMembers : Nat := 64
/-- Staging entries (R47), which are the WH credits. -/
def stagingEntries : Nat := 128
/-- Staging data units (R48), which are the WD credits. -/
def stagingUnits : Nat := 256
/-- Upper read records (R99), which are the RD credits. -/
def readRecords : Nat := 32
/-- Lower tags (R183). -/
def lowerTags : Nat := 32
/-- Window table entries (01 1.3). -/
def windowEntries : Nat := 16
/-- Fault list records (R204). -/
def faultRecords : Nat := 32
/-- Upper retry buffer packets (R155). -/
def upperRetryPackets : Nat := 32
/-- Lower retry buffer packets (R155). -/
def lowerRetryPackets : Nat := 64
/-- Good packets that make an ACK due (R159). -/
def ackEvery : Nat := 8
/-- The replay count at which the next replay becomes a retrain (R163). -/
def replayLimit : Nat := 3
/-- The saturation value of a discard count (R38). -/
def discardMax : Nat := 255
/-- Free staging entries below this raise the pressure condition (R65). -/
def pressureEntries : Nat := 32
/-- Free data units below this raise the pressure condition (R65). -/
def pressureUnits : Nat := 64
/-- The ordering horizon's limit (R4). -/
def horizonLimit : Nat := 2 ^ 30
/-- Bytes in a window page (01 1.3). -/
def pageBytes : Nat := 4096
/-- The largest window size in pages (R202). -/
def maxPages : Nat := 2 ^ 28
/-- The smallest journal size (R71). -/
def minJournal : Nat := 64 * 1024
/-- The largest journal size (R71). -/
def maxJournal : Nat := 16 * 1024 * 1024
/-- The largest module size (R71). -/
def maxModule : Nat := 2 ^ 40
/-- The part code IDENTIFY reports (R196). -/
def partCode : Nat := 0x2140
/-- The revision IDENTIFY reports (R196). -/
def revision : Nat := 1

/-- FREE VALUE (log 36): the tag byte of a lower-link write. Chapter 11 gives the tag field only a
lower tag to hold, and a write has none (R183, R209). A function of the packet's sequence. -/
opaque lowerWriteTag : Nat → Byte

end Sys2Proof.Config
end

