-- ==== Sys2Proof/Syntax.lean ====
section
/-! DEFINITION. The commands of the FX-2140: one constructor per row of spec/opcode_table.json. -/

namespace Sys2Proof

/-- The two links, and the port of the part on each: the ULP and the LLP (00_scope.md 2). -/
inductive Link where
  | upper
  | lower
  deriving DecidableEq, Repr

/-- The events the part takes, each whole and indivisible. A received packet carries the port and
its raw bytes in offset order, checks included (chapter 11); a management command carries the
bytes that followed its command code in the write transaction (R193). -/
inductive Instr where
  /-- POWER_ON_RESET (R151) with the levels of ADDR1 and ADDR0 as it ends (R212). -/
  | powerOnReset (addr1 addr0 : Bool)
  /-- WARM_RESET (R152). -/
  | warmReset
  /-- PFW_N_ASSERTED (R137). -/
  | pfwNAsserted
  /-- PFW_N_DEASSERTED (R137). -/
  | pfwNDeasserted
  /-- TRANSACTION_PACKET (R158). -/
  | transactionPacket (port : Link) (bytes : List Byte)
  /-- INIT (R156). -/
  | init (port : Link) (bytes : List Byte)
  /-- ACK (R162). -/
  | ack (port : Link) (bytes : List Byte)
  /-- NAK (R162). -/
  | nak (port : Link) (bytes : List Byte)
  /-- CREDIT (R181). -/
  | credit (port : Link) (bytes : List Byte)
  /-- ACK_TIMER_EXPIRY (R159). -/
  | ackTimerExpiry (port : Link)
  /-- REPLAY_TIMER_EXPIRY (R163). -/
  | replayTimerExpiry (port : Link)
  /-- TRAINING_TIMER_EXPIRY (R156). -/
  | trainingTimerExpiry (port : Link)
  /-- REFRESH_TIMER_EXPIRY (R180). -/
  | refreshTimerExpiry
  /-- LOWER_HOLD_TIMER_EXPIRY (R172). -/
  | lowerHoldTimerExpiry
  /-- BUDGET_TIMER_EXPIRY (R147). -/
  | budgetTimerExpiry
  /-- IDENTIFY (R196). -/
  | identify (body : List Byte)
  /-- READ_STATUS (R197). -/
  | readStatus (body : List Byte)
  /-- SET_JOURNAL (R198). -/
  | setJournal (body : List Byte)
  /-- SET_PARAMETERS (R199). -/
  | setParameters (body : List Byte)
  /-- WRITE_PENDING_ENTRY (R200). -/
  | writePendingEntry (body : List Byte)
  /-- READ_PENDING_ENTRY (R201). -/
  | readPendingEntry (body : List Byte)
  /-- COMMIT_ENTRY (R202). -/
  | commitEntry (body : List Byte)
  /-- READ_ENTRY (R201). -/
  | readEntry (body : List Byte)
  /-- START (R118). -/
  | start (body : List Byte)
  /-- READ_FAULT (R205). -/
  | readFault (body : List Byte)
  /-- UNKNOWN_COMMAND_CODE (R193) with the code. -/
  | unknownCommandCode (code : Byte) (body : List Byte)
  /-- TAKE_REQUEST (R8). -/
  | takeRequest
  /-- LINK_DOWN_MARKER_AT_HEAD (R17). -/
  | linkDownMarkerAtHead
  /-- HOLDUP_INTAKE (R19). -/
  | holdupIntake
  /-- ARBITER_GRANT (R186). -/
  | arbiterGrant
  /-- RESERVATION (R78). -/
  | reservation
  /-- APPLY_TAKE_GROUP (R85). -/
  | applyTakeGroup
  /-- CHECKPOINT_START (R89). -/
  | checkpointStart
  /-- COMPLETION_TAKEN (R106). -/
  | completionTaken
  /-- CREDIT_UNIT_SENT (R180). -/
  | creditUnitSent
  deriving DecidableEq, Repr

end Sys2Proof
end

