-- ==== Sys2Proof/Decode.lean ====
section
/-! DEFINITION. Decoding of a word by the table's bits. The hardware is a block and no row of
spec/opcode_table.json gives bits, so no word spells a command. -/

namespace Sys2Proof

/-- The command that a word spells by the table's bits: none, since every row's fields are empty. -/
def decodeTableWord (_nbits _w : Nat) : Option Instr := none

end Sys2Proof
end

