-- ==== Sys2Proof/Machine/State.lean ====
section
/-! DEFINITION. The state of the FX-2140: every register, queue, record, timer and line the spec
gives its thirteen blocks, the queue of waiting commands, and the state after power-on reset. -/

namespace Sys2Proof.Machine

/-- The part's mode (R136). -/
inductive Mode where
  | unconfigured
  | recovering
  | operating
  | holdup
  | safe
  | halted
  deriving DecidableEq, Repr

/-- The causes a fault record carries (R204); the first six are also discard causes (R37). -/
inductive Cause where
  | tallyMismatch
  | stray
  | poisoned
  | oversize
  | linkDown
  | power
  | deniedWrite
  | malformed
  | creditOverrun
  | upperLinkDown
  | lowerLinkDown
  | retrain
  | lowerLoss
  | mediaError
  | recoveryDone
  | recoveryFailed
  | holdupExpired
  | holdupDone
  deriving DecidableEq, Repr

/-! ### Classifier -/

/-- A window's policy (01 1.3). -/
inductive Policy where
  | pass
  | journal
  | readonly
  | closed
  deriving DecidableEq, Repr

/-- PASS or DENY: the default policy and a JOURNAL window's ungrouped field (01 1.3). -/
inductive PassDeny where
  | pass
  | deny
  deriving DecidableEq, Repr

/-- A window table entry (01 1.3). -/
structure Window where
  valid : Bool
  base : Addr
  pages : Nat
  policy : Policy
  ungrouped : PassDeny
  deriving DecidableEq, Repr

/-- An entry after power-on reset, and after its removal (R21, R203). -/
def Window.empty : Window :=
  { valid := false, base := 0#40, pages := 0, policy := .pass, ungrouped := .pass }

/-- A request's kind (01 1.1); a reserved kind keeps its byte. -/
inductive ReqKind where
  | read
  | write
  | reserved (code : Byte)
  deriving DecidableEq, Repr

/-- A request as the ULP accepted it (01 1.1, chapter 11). -/
structure Request where
  kind : ReqKind
  tag : UTag
  addr : Addr
  length : Nat
  group : Bool
  close : Bool
  poison : Bool
  stream : Nat
  count : Nat
  sig : Sig
  data : List Byte
  deriving DecidableEq, Repr

/-- An item of the intake queue (01 1.1). The HOLDUP marker stands in it only inside the event of
hold-up entry (R18). -/
inductive QueueItem where
  | request (r : Request)
  | linkDownMarker
  | holdupMarker
  deriving DecidableEq, Repr

/-- A request's line verdict (R6). -/
inductive Verdict where
  | beyond
  | journalRegion
  | window (policy : Policy) (ungrouped : PassDeny)
  | default (policy : PassDeny)
  deriving DecidableEq, Repr

/-! ### Group unit -/

/-- A live group's state (R26). -/
inductive GroupState where
  | opened
  | closed
  | journaling
  | committing
  | committed
  | applying
  | applied
  deriving DecidableEq, Repr

/-- A group record in use (R25). `members` lists the member indexes of the staged members in member
order; the staging entry of index `k` is the one whose kind names this record and `k` (log 26). -/
structure Group where
  stream : Nat
  state : GroupState
  count : Nat
  sig : Sig
  members : List Nat
  fault : Option Cause
  serial : Option Num32
  closeIntake : Option Num32
  start : Option Pos
  lines : Option Nat
  fenceComplete : Bool
  deriving DecidableEq, Repr

/-- A group as it opens (R28). -/
def Group.fresh (stream : Nat) : Group :=
  { stream := stream, state := .opened, count := 0, sig := 0#16, members := [], fault := none,
    serial := none, closeIntake := none, start := none, lines := none, fenceComplete := false }

/-- A stream's state (R23): the record of its OPEN group if any, the discard count and last cause. -/
structure StreamState where
  group : Option Nat
  discards : Nat
  lastCause : Option Cause
  deriving DecidableEq, Repr

/-- A stream after reset (R45). -/
def StreamState.idle : StreamState := { group := none, discards := 0, lastCause := none }

/-! ### Staging store -/

/-- The state of a PASS entry (R47). -/
inductive PassState where
  | waiting
  | abandoned
  deriving DecidableEq, Repr

/-- The state of a MEMBER entry (R47). -/
inductive MemberState where
  | held
  | applied
  deriving DecidableEq, Repr

/-- A staging entry's kind with its state, and for a member the record and member index (R47). -/
inductive EntryKind where
  | pass (st : PassState)
  | member (record index : Nat) (st : MemberState)
  deriving DecidableEq, Repr

/-- A staging entry (R47). -/
structure Entry where
  intake : Num32
  addr : Addr
  length : Nat
  data : List Byte
  kind : EntryKind
  poison : Bool
  deriving DecidableEq, Repr

/-- The staging store: its list, oldest first, and its two free counts (R47, R49). -/
structure Staging where
  entries : List Entry
  freeEntries : Nat
  freeUnits : Nat
  deriving DecidableEq, Repr

/-! ### Journal engine, apply engine, checkpoint unit -/

/-- The journal configuration (R71). -/
structure JournalConfig where
  base : Addr
  size : Nat
  moduleSize : Nat
  deriving DecidableEq, Repr

/-- The phase of the group being written (R77); in BODY, `line` is the next line to send. -/
inductive JournalPhase where
  | body (line : Nat)
  | commitLine
  | fence
  deriving DecidableEq, Repr

/-- The journal engine's current group (R77). -/
structure JournalCurrent where
  record : Nat
  phase : JournalPhase
  deriving DecidableEq, Repr

/-- The journal engine (R73, R77). -/
structure Journal where
  head : Option Pos
  epoch : Option Num32
  queue : List Nat
  current : Option JournalCurrent
  spaceWait : Bool
  deriving DecidableEq, Repr

/-- The apply engine's current group and its next member (R85). -/
structure ApplyCurrent where
  record : Nat
  next : Nat
  deriving DecidableEq, Repr

/-- The phase of a checkpoint in flight (R88). -/
inductive CkptPhase where
  | fenceA
  | anchor
  | fenceB
  deriving DecidableEq, Repr

/-- A checkpoint in flight (R88). -/
structure CkptFlight where
  firstSerial : Num32
  lastSerial : Num32
  newTail : Pos
  newNextSerial : Num32
  phase : CkptPhase
  sentA : Bool
  sentAnchor : Bool
  sentB : Bool
  deriving DecidableEq, Repr

/-- The checkpoint unit (R73, R88). -/
structure Checkpoint where
  tail : Option Pos
  generation : Option Num32
  slot : Option Nat
  flight : Option CkptFlight
  deriving DecidableEq, Repr

/-! ### Read unit and flush unit -/

/-- The statuses of an upper completion (chapter 11.2). -/
inductive Status where
  | ok
  | refused
  | denied
  | poisoned
  | failed
  | lost
  deriving DecidableEq, Repr

/-- A completion toward the requester (R99). -/
structure Completion where
  tag : UTag
  status : Status
  data : List Byte
  deriving DecidableEq, Repr

/-- The discard count and cause a stream flush took (R39). -/
structure Taken where
  count : Nat
  cause : Option Cause
  deriving DecidableEq, Repr

/-- A read record's kind with the fields of that kind (R99). -/
inductive ReadKind where
  | read (addr : Addr) (length : Nat)
  | globalFlush (bound : Option Num32) (target : Option Num32)
  | streamFlush (stream : Nat) (bound : Option Num32) (taken : Option Taken)
  deriving DecidableEq, Repr

/-- A read record's state (R99), with the lower tag in ISSUED and the completion in DONE. -/
inductive ReadState where
  | held
  | issued (tag : Nat)
  | waiting
  | done (c : Completion)
  deriving DecidableEq, Repr

/-- An upper read record in use (R99). -/
structure ReadRecord where
  tag : UTag
  kind : ReadKind
  intake : Num32
  orphan : Bool
  state : ReadState
  deriving DecidableEq, Repr

/-- A formed completion waiting for the ULP (R106): a record's, or one without a record (R18). -/
inductive Formed where
  | record (index : Nat)
  | direct (c : Completion)
  deriving DecidableEq, Repr

/-- The flush unit's three marks (R108). -/
structure Marks where
  passSend : Num32
  granted : Num32
  durable : Num32
  deriving DecidableEq, Repr

/-! ### Recovery engine -/

/-- A module status (chapter 11.2); any code not listed is `other` (R210). -/
inductive ModStatus where
  | ok
  | poisoned
  | error
  | other
  deriving DecidableEq, Repr

/-- A module answer: its status and its data. -/
structure Answer where
  status : ModStatus
  data : List Byte
  deriving DecidableEq, Repr

/-- The recovery engine's phases (R119). -/
inductive RecPhase where
  | idle
  | anchors
  | freshAnchor
  | freshFence
  | scan
  | redo
  | fence1
  | newAnchor
  | fence2
  deriving DecidableEq, Repr

/-- The kind of start (R119). -/
inductive StartKind where
  | fresh
  | normal
  deriving DecidableEq, Repr

/-- An anchor's fields (R76). -/
structure Anchor where
  epoch : Num32
  generation : Num32
  tail : Pos
  nextSerial : Num32
  size : Nat
  deriving DecidableEq, Repr

/-- The selected anchor (R119, R123). -/
structure Selected where
  slot : Nat
  epoch : Num32
  generation : Num32
  tail : Pos
  nextSerial : Num32
  deriving DecidableEq, Repr

/-- An entry of the group buffer (R119): target, length, the descriptor's data check, and the data
bytes once the data line has been judged. -/
structure BufferEntry where
  target : Addr
  length : Nat
  check : Num32
  data : List Byte
  deriving DecidableEq, Repr

/-- The scan's items of R119; `ended` is set from the end of the scan on (R128). -/
structure Scan where
  sel : Selected
  g : Pos
  s : Num32
  m : Option Nat
  sig : Sig
  judged : Pos
  buffer : List BufferEntry
  nextRedo : Nat
  ended : Bool
  deriving DecidableEq, Repr

/-- What a recovery read reads: an anchor line or a journal position (R120). -/
inductive RecTarget where
  | line (index : Nat)
  | position (p : Pos)
  deriving DecidableEq, Repr

/-- A recovery read in flight (R119). -/
structure RecRead where
  target : RecTarget
  tag : Nat
  answer : Option Answer
  deriving DecidableEq, Repr

/-- The recovery engine (R119). -/
structure Recovery where
  phase : RecPhase
  kind : Option StartKind
  epochParam : Option Num32
  anchor0 : Option Answer
  anchor1 : Option Answer
  scan : Option Scan
  inFlight : List RecRead
  fenceOut : Bool
  replayed : Nat
  deriving DecidableEq, Repr

/-- The recovery engine in IDLE with every other item absent or empty (R135). -/
def Recovery.idle : Recovery :=
  { phase := .idle, kind := none, epochParam := none, anchor0 := none, anchor1 := none,
    scan := none, inFlight := [], fenceOut := false, replayed := 0 }

/-! ### Links -/

/-- A link's state (R155). -/
inductive LinkState where
  | down
  | training
  | up
  | retrain
  deriving DecidableEq, Repr

/-- An INIT's training kind (R154). -/
inductive TrainKind where
  | train
  | retrain
  deriving DecidableEq, Repr

/-- A port's link state record (R155), without its retry buffer. -/
structure Port where
  state : LinkState
  nextTx : Seq
  expRx : Seq
  lastAcc : Seq
  unacked : Nat
  ackTimer : Bool
  nakOut : Bool
  replayCount : Nat
  replayTimer : Bool
  trainTimer : Bool
  initSent : Bool
  initRecv : Bool
  heldDown : Bool
  deriving DecidableEq, Repr

/-- A port after either reset (R155). -/
def Port.reset : Port :=
  { state := .down, nextTx := 0#12, expRx := 0#12, lastAcc := 4095#12, unacked := 0,
    ackTimer := false, nakOut := false, replayCount := 0, replayTimer := false,
    trainTimer := false, initSent := false, initRecv := false, heldDown := false }

/-- Three cumulative credit numbers of 8, 12 and 8 bits (R175, R181). -/
structure Limits where
  wh : BitVec 8
  wd : BitVec 12
  rd : BitVec 8
  deriving DecidableEq, Repr

/-- Limits of zero. -/
def Limits.zero : Limits := { wh := 0#8, wd := 0#12, rd := 0#8 }

/-- An amount of each credit kind: a charge, a return, or a return pool (R175 to R177, R182). -/
structure Amount where
  wh : Nat
  wd : Nat
  rd : Nat
  deriving DecidableEq, Repr

/-- The full upper capacity (09 9.1). -/
def Amount.capacity : Amount :=
  { wh := Config.stagingEntries, wd := Config.stagingUnits, rd := Config.readRecords }

/-- No credits. -/
def Amount.zero : Amount := { wh := 0, wd := 0, rd := 0 }

/-- The ULP's credit state (R175): consumed counts, limits, return pools, CREDIT due, refresh timer. -/
structure UpperCredits where
  consumed : Limits
  limit : Limits
  pool : Amount
  due : Bool
  refresh : Bool
  deriving DecidableEq, Repr

/-- The upper credits after either reset (R175). -/
def UpperCredits.reset : UpperCredits :=
  { consumed := .zero, limit := .zero, pool := .capacity, due := false, refresh := false }

/-- The LLP's credit state (R181). -/
structure LowerCredits where
  limit : Limits
  consumed : Limits
  deriving DecidableEq, Repr

/-- The lower credits after either reset and in DOWN (R181). -/
def LowerCredits.zero : LowerCredits := { limit := .zero, consumed := .zero }

/-- A packet of the upper retry buffer; every one is unacknowledged (R161, R162). -/
structure UpperPacket where
  seq : Seq
  completion : Completion
  deriving DecidableEq, Repr

/-- The kinds of lower-link write (R169). -/
inductive WriteKind where
  | inPlace
  | journal
  | anchor
  | redo
  deriving DecidableEq, Repr

/-- A lower-link request (R169, R209). A write's length is the number of its data bytes. -/
inductive LowerBody where
  | write (kind : WriteKind) (addr : Addr) (data : List Byte) (poison : Bool)
  | read (addr : Addr) (length : Nat) (tag : Nat)
  | fence (tag : Nat)
  deriving DecidableEq, Repr

/-- A packet of the lower retry buffer (R169, R170). -/
structure LowerPacket where
  seq : Seq
  body : LowerBody
  acked : Bool
  resend : Bool
  deriving DecidableEq, Repr

/-! ### Lower tags and the arbiter -/

/-- A lower tag's owner (R183). -/
inductive Owner where
  | read
  | journal
  | checkpoint
  | flush
  | holdup
  | recovery
  deriving DecidableEq, Repr

/-- A lower tag's purpose (R183). -/
inductive Purpose where
  | read
  | groupFence
  | fenceA
  | fenceB
  | flushFence
  | finalFence
  | recoveryFence
  deriving DecidableEq, Repr

/-- A lower tag's reference (R183). -/
inductive TagRef where
  | none
  | record (index : Nat)
  | serial (n : Num32)
  | line (index : Nat)
  | position (p : Pos)
  deriving DecidableEq, Repr

/-- What an OUTSTANDING or SPENT tag carries (R183). -/
structure TagInfo where
  owner : Owner
  purpose : Purpose
  ref : TagRef
  passCount : Option Num32
  detached : Bool
  deriving DecidableEq, Repr

/-- A lower tag record (R183). -/
inductive LowerTag where
  | free
  | outstanding (t : TagInfo)
  | spent (t : TagInfo)
  deriving DecidableEq, Repr

/-- The arbiter's sources, in circle order (09 9.5). -/
inductive Source where
  | passDrain
  | journal
  | apply
  | checkpoint
  | readIssue
  | flushFence
  | recovery
  deriving DecidableEq, Repr

/-- The credit claims (R187). -/
structure Claims where
  wh : Option Source
  wd : Option Source
  rd : Option Source
  deriving DecidableEq, Repr

/-- No claim held. -/
def Claims.none : Claims := { wh := .none, wd := .none, rd := .none }

/-! ### Mode controller and management port -/

/-- The hold-up work (R136): each part complete or not, the pass target, the abandoned count. -/
structure HoldWork where
  journalDone : Bool
  drainDone : Bool
  fenceDone : Bool
  target : Option Num32
  abandoned : Nat
  deriving DecidableEq, Repr

/-- Every part outstanding, no pass target, abandoned count 0 (R143, R151). -/
def HoldWork.outstanding : HoldWork :=
  { journalDone := false, drainDone := false, fenceDone := false, target := none, abandoned := 0 }

/-- The parameter set (R199); times in ms. -/
structure Params where
  batch : Nat
  holdTime : Nat
  budget : Nat
  default : PassDeny
  deriving DecidableEq, Repr

/-- The parameter set after power-on reset (R151, R199). -/
def Params.reset : Params := { batch := 4, holdTime := 100, budget := 20, default := .deny }

/-- The pending window entry (R200). -/
structure PendingEntry where
  index : Byte
  bytes : List Byte
  check : Byte
  short : Bool
  long : Bool
  accepted : Bool
  deriving DecidableEq, Repr

/-- The response statuses (R194). -/
inductive RespStatus where
  | done
  | busy
  | badState
  | badArgument
  | mismatch
  | conflict
  | empty
  deriving DecidableEq, Repr

/-- A held response (R194). -/
structure Response where
  status : RespStatus
  data : List Byte
  deriving DecidableEq, Repr

/-- A fault record (R204). -/
structure FaultRecord where
  seq : BitVec 16
  cause : Cause
  mode : Mode
  stream : Option Nat
  serial : Option Num32
  addr : Option Addr
  count : Option Nat
  link : Option Link
  deriving DecidableEq, Repr

/-! ### What the part sends -/

/-- A link unit the part sends (R154). -/
inductive LinkUnit where
  | init (kind : TrainKind) (reply : Bool) (limits : Limits)
  | ack (seq : Seq)
  | nak (seq : Seq)
  | credit (limits : Limits)
  deriving DecidableEq, Repr

/-- A packet the part puts on a link (R153, R154). -/
inductive Sent where
  | unit (link : Link) (u : LinkUnit)
  | completion (seq : Seq) (c : Completion)
  | request (seq : Seq) (body : LowerBody)
  deriving DecidableEq, Repr

/-! ### The state -/

/-- The state of the part and the queue of waiting commands. INVENTORY.md lists each field with
the rule that names it. `sent` is the model's own field (log 1). -/
structure State where
  pending : List Instr
  pfwAsserted : Bool
  safeLine : Bool
  alert : Bool
  i2cAddress : BitVec 7
  sent : List Sent
  mode : Mode
  budgetTimer : Option Nat
  hold : HoldWork
  queue : List QueueItem
  intake : Num32
  windows : List Window
  groups : List (Option Group)
  streams : List StreamState
  serial : Option Num32
  staging : Staging
  config : Option JournalConfig
  journal : Journal
  apply : Option ApplyCurrent
  ckpt : Checkpoint
  reads : List (Option ReadRecord)
  formed : List Formed
  marks : Marks
  recovery : Recovery
  upper : Port
  lower : Port
  upperRetry : List UpperPacket
  lowerRetry : List LowerPacket
  credits : UpperCredits
  lowerCredits : LowerCredits
  tags : List LowerTag
  holdTimer : Option Nat
  robin : Nat
  claims : Claims
  params : Params
  pendingEntry : Option PendingEntry
  response : Option Response
  faults : List FaultRecord
  faultSeq : BitVec 16
  deriving DecidableEq, Repr

/-- The spec names no condition on which the block stops taking events, so no fault exists:
HALTED and SAFE are modes (R140, R149). -/
inductive Fault where
  deriving DecidableEq, Repr

/-- Why a command has no meaning in the model. -/
inductive Refusal where
  /-- Raised by `exec` for a command whose meaning is not written; safe. No arm raises it. -/
  | notModelled (mnemonic : String)
  deriving DecidableEq, Repr

/-- The staging store after either reset (R69, R70). -/
def Staging.reset : Staging :=
  { entries := [], freeEntries := Config.stagingEntries, freeUnits := Config.stagingUnits }

/-- The journal engine after either reset (R73, R77). -/
def Journal.reset : Journal :=
  { head := none, epoch := none, queue := [], current := none, spaceWait := false }

/-- The checkpoint unit after either reset (R88). -/
def Checkpoint.reset : Checkpoint :=
  { tail := none, generation := none, slot := none, flight := none }

/-- The flush unit's marks after either reset (R117). -/
def Marks.reset : Marks := { passSend := 0#32, granted := 0#32, durable := 0#32 }

/-- The part right after power-on reset, before the first event after it (log 4). The straps are
read low (log 6) and PFW_N deasserted (log 5); every other value is the spec's. -/
def State.reset : State :=
  { pending := [], pfwAsserted := false, safeLine := false, alert := false,
    i2cAddress := 0x38#7, sent := [], mode := .unconfigured, budgetTimer := none,
    hold := .outstanding, queue := [], intake := 0#32,
    windows := List.replicate Config.windowEntries .empty,
    groups := List.replicate Config.groupRecords none,
    streams := List.replicate Config.streams .idle,
    serial := none, staging := .reset, config := none, journal := .reset, apply := none,
    ckpt := .reset, reads := List.replicate Config.readRecords none, formed := [],
    marks := .reset, recovery := .idle, upper := .reset, lower := .reset, upperRetry := [],
    lowerRetry := [], credits := .reset, lowerCredits := .zero,
    tags := List.replicate Config.lowerTags .free, holdTimer := none, robin := 0,
    claims := .none, params := .reset, pendingEntry := none, response := none, faults := [],
    faultSeq := 0#16 }

end Sys2Proof.Machine
end

