-- ==== Sys2Proof/Machine/Bytes.lean ====
section
/-! DEFINITION. Byte order and checks: little-endian fields (R207) and the CRC-32 and CRC-16 (R208). -/

namespace Sys2Proof.Machine

/-- A byte of a number. -/
def toByte (n : Nat) : Byte := BitVec.ofNat 8 n

/-- The `k` bytes of a field, least significant first (R207). -/
def leBytes : (k : Nat) → Nat → List Byte
  | 0, _ => []
  | k + 1, n => toByte n :: leBytes k (n / 256)

/-- The number a run of bytes holds, least significant first (R207). -/
def leNat : List Byte → Nat
  | [] => 0
  | b :: bs => b.toNat + 256 * leNat bs

/-- The `len` bytes from offset `off`. -/
def slice (bytes : List Byte) (off len : Nat) : List Byte := (bytes.drop off).take len

/-- The field of `len` bytes at offset `off`, as a number. -/
def fieldAt (bytes : List Byte) (off len : Nat) : Nat := leNat (slice bytes off len)

/-- The byte at offset `off` as a number, 0 beyond the end. -/
def byteAt (bytes : List Byte) (off : Nat) : Nat := (bytes.getD off 0#8).toNat

/-- `n` bytes of 00h. -/
def zeros (n : Nat) : List Byte := List.replicate n 0#8

/-- One bit of the CRC-32, polynomial 04C11DB7h reflected to EDB88320h (R208). -/
def crc32Bit (c : Nat) : Nat := if c % 2 = 1 then (c / 2) ^^^ 0xEDB88320 else c / 2

/-- Eight bits of the CRC-32. -/
def crc32Eight (c : Nat) : Nat :=
  crc32Bit (crc32Bit (crc32Bit (crc32Bit (crc32Bit (crc32Bit (crc32Bit (crc32Bit c)))))))

/-- One byte into the CRC-32 register. -/
def crc32Byte (c : Nat) (b : Byte) : Nat := crc32Eight (c ^^^ b.toNat)

/-- The CRC-32 of R208: initial value and final XOR FFFFFFFFh, reflected in and out. -/
def crc32 (bytes : List Byte) : Nat := bytes.foldl crc32Byte 0xFFFFFFFF ^^^ 0xFFFFFFFF

/-- One bit of the CRC-16, polynomial 1021h, not reflected (R208). -/
def crc16Bit (c : Nat) : Nat :=
  if c / 0x8000 % 2 = 1 then ((c * 2) % 0x10000) ^^^ 0x1021 else (c * 2) % 0x10000

/-- Eight bits of the CRC-16. -/
def crc16Eight (c : Nat) : Nat :=
  crc16Bit (crc16Bit (crc16Bit (crc16Bit (crc16Bit (crc16Bit (crc16Bit (crc16Bit c)))))))

/-- One byte into the CRC-16 register. -/
def crc16Byte (c : Nat) (b : Byte) : Nat := crc16Eight (c ^^^ (b.toNat * 256))

/-- The CRC-16 of R208: initial value FFFFh, final XOR 0000h. -/
def crc16 (bytes : List Byte) : Nat := bytes.foldl crc16Byte 0xFFFF

/-- A run of bytes followed by its CRC-32, stored little-endian in the next four bytes. -/
def withCrc32 (bytes : List Byte) : List Byte := bytes ++ leBytes 4 (crc32 bytes)

/-- A run of bytes followed by its CRC-16. -/
def withCrc16 (bytes : List Byte) : List Byte := bytes ++ leBytes 2 (crc16 bytes)

/-- Whether the last four bytes are the CRC-32 of those before them (R208). -/
def crc32Good (bytes : List Byte) : Bool :=
  fieldAt bytes (bytes.length - 4) 4 == crc32 (bytes.take (bytes.length - 4))

/-- Whether the last two bytes are the CRC-16 of those before them (R208). -/
def crc16Good (bytes : List Byte) : Bool :=
  fieldAt bytes (bytes.length - 2) 2 == crc16 (bytes.take (bytes.length - 2))

/-- A Bool as a bit of weight `w`. -/
def bitOf (b : Bool) (w : Nat) : Nat := if b then w else 0

/-- Bit `i` of a byte. -/
def bitAt (n i : Nat) : Bool := n / 2 ^ i % 2 == 1

end Sys2Proof.Machine
end

