-- ==== Sys2Proof/Machine/Formats.lean ====
section
/-! DEFINITION. The formats the part writes and stores: the packets it sends, the journal records,
window entry bytes, report codes (chapter 11). -/

namespace Sys2Proof.Machine

/-! ### Codes (chapter 11.2 and 11.4) -/

/-- A mode's code. -/
def Mode.code : Mode → Nat
  | .unconfigured => 0
  | .recovering => 1
  | .operating => 2
  | .holdup => 3
  | .safe => 4
  | .halted => 5

/-- A cause's code. -/
def Cause.code : Cause → Nat
  | .tallyMismatch => 1
  | .stray => 2
  | .poisoned => 3
  | .oversize => 4
  | .linkDown => 5
  | .power => 6
  | .deniedWrite => 7
  | .malformed => 8
  | .creditOverrun => 9
  | .upperLinkDown => 10
  | .lowerLinkDown => 11
  | .retrain => 12
  | .lowerLoss => 13
  | .mediaError => 14
  | .recoveryDone => 15
  | .recoveryFailed => 16
  | .holdupExpired => 17
  | .holdupDone => 18

/-- A cause that may be absent: 00h when it is. -/
def causeCode : Option Cause → Nat
  | none => 0
  | some c => c.code

/-- A group state's code; 00h is a free record. -/
def GroupState.code : GroupState → Nat
  | .opened => 1
  | .closed => 2
  | .journaling => 3
  | .committing => 4
  | .committed => 5
  | .applying => 6
  | .applied => 7

/-- A link state's code. -/
def LinkState.code : LinkState → Nat
  | .down => 0
  | .training => 1
  | .up => 2
  | .retrain => 3

/-- An upper completion status code. -/
def Status.code : Status → Nat
  | .ok => 0
  | .refused => 1
  | .denied => 2
  | .poisoned => 3
  | .failed => 4
  | .lost => 5

/-- A response status code. -/
def RespStatus.code : RespStatus → Nat
  | .done => 0
  | .busy => 1
  | .badState => 2
  | .badArgument => 3
  | .mismatch => 4
  | .conflict => 5
  | .empty => 6

/-! ### Packets the part sends (chapter 11.2, R209) -/

/-- A transaction packet: class 00h, sequence, header, data, CRC-32. -/
def transactionBytes (seq : Seq) (header data : List Byte) : List Byte :=
  withCrc32 (0x00#8 :: leBytes 2 seq.toNat ++ header ++ data)

/-- A request header with expected count and signature zero, as the part sends it (R209). Bits 7:6 of the
tag byte of a READ or FENCE and bit 7 of the length byte, which chapter 11 calls ignored, are sent as 0
(log 43). -/
def requestHeader (kind tag : Nat) (addr : Addr) (length attributes : Nat) : List Byte :=
  [toByte kind, toByte tag] ++ leBytes 5 addr.toNat ++ [toByte length, toByte attributes] ++ zeros 3

/-- The bytes of a lower-link request. A write's tag byte is the free value of log 36. -/
def requestBytes (seq : Seq) : LowerBody → List Byte
  | .write _ addr data poison =>
    transactionBytes seq
      (requestHeader 2 (Config.lowerWriteTag seq.toNat).toNat addr data.length (bitOf poison 4)) data
  | .read addr length tag => transactionBytes seq (requestHeader 1 tag addr length 0) []
  | .fence tag => transactionBytes seq (requestHeader 3 tag 0#40 0 0) []

/-- The bytes of an upper-link completion. Bits 7:6 of its tag byte are sent as 0 (log 43). -/
def completionBytes (seq : Seq) (c : Completion) : List Byte :=
  transactionBytes seq
    ([0x08#8, toByte c.tag.toNat, toByte c.status.code, toByte c.data.length] ++ zeros 8) c.data

/-- Three limits: 8 bits, 12 bits, 8 bits. Bits 15:12 of the WD limit are sent as 0 (log 43). -/
def limitBytes (l : Limits) : List Byte :=
  leBytes 1 l.wh.toNat ++ leBytes 2 l.wd.toNat ++ leBytes 1 l.rd.toNat

/-- A training kind's byte. -/
def TrainKind.code : TrainKind → Nat
  | .train => 0
  | .retrain => 1

/-- The bytes of a link unit. Bits 15:12 of an ACK's or a NAK's sequence are sent as 0 (log 43). -/
def unitBytes : LinkUnit → List Byte
  | .init kind reply l =>
    withCrc16 ([0x81#8, toByte kind.code, toByte (bitOf reply 1)] ++ limitBytes l)
  | .ack seq => withCrc16 (0x82#8 :: leBytes 2 seq.toNat)
  | .nak seq => withCrc16 (0x83#8 :: leBytes 2 seq.toNat)
  | .credit l => withCrc16 (0x84#8 :: limitBytes l)

/-- The bytes of a packet the part sends. -/
def Sent.bytes : Sent → List Byte
  | .unit _ u => unitBytes u
  | .completion seq c => completionBytes seq c
  | .request seq body => requestBytes seq body

/-! ### Journal records (chapter 11.3, R74 to R76, R211) -/

/-- A journal line of 64 bytes with the CRC-32 of bytes 0 to 59 at 60 to 63 (R208). -/
def recordLine (fields : List Byte) : List Byte :=
  withCrc32 (fields ++ zeros (60 - fields.length))

/-- The data line of a member: its bytes, then zeros to the end of the line (R74). -/
def dataLine (data : List Byte) : List Byte := data ++ zeros (64 - data.length)

/-- A member descriptor line (R74). -/
def descriptorLine (epoch serial : Num32) (index count length : Nat) (target : Addr)
    (data : List Byte) : List Byte :=
  recordLine ([0xA1#8] ++ zeros 3 ++ leBytes 4 epoch.toNat ++ leBytes 4 serial.toNat ++
    [toByte index, toByte count, toByte length, 0#8] ++ leBytes 5 target.toNat ++ zeros 35 ++
    leBytes 4 (crc32 (dataLine data)))

/-- A commit line (R75). -/
def commitLine (epoch serial : Num32) (stream count : Nat) (sig : Sig) (start : Pos) : List Byte :=
  recordLine ([0xA2#8] ++ zeros 3 ++ leBytes 4 epoch.toNat ++ leBytes 4 serial.toNat ++
    [toByte stream, toByte count] ++ leBytes 2 sig.toNat ++ leBytes 6 start.toNat)

/-- An anchor line (R76). -/
def anchorLine (a : Anchor) : List Byte :=
  recordLine ([0xA3#8] ++ zeros 3 ++ leBytes 4 a.epoch.toNat ++ leBytes 4 a.generation.toNat ++
    leBytes 6 a.tail.toNat ++ leBytes 4 a.nextSerial.toNat ++ leBytes 4 a.size)

/-- Whether a journal line's own check is good (R208). -/
def recordGood (line : List Byte) : Bool := fieldAt line 60 4 == crc32 (line.take 60)

/-- An anchor's fields, read from the offsets of chapter 11.3. -/
def parseAnchor (line : List Byte) : Anchor :=
  { epoch := BitVec.ofNat 32 (fieldAt line 4 4)
    generation := BitVec.ofNat 32 (fieldAt line 8 4)
    tail := BitVec.ofNat 48 (fieldAt line 12 6)
    nextSerial := BitVec.ofNat 32 (fieldAt line 18 4)
    size := fieldAt line 22 4 }

/-! ### Window entry bytes (chapter 11.4) -/

/-- A policy code: 0 to 3, and 4 to 7 invalid. -/
def policyOf (code : Nat) : Option Policy :=
  if code = 0 then some .pass
  else if code = 1 then some .journal
  else if code = 2 then some .readonly
  else if code = 3 then some .closed
  else none

/-- A policy's code. -/
def Policy.code : Policy → Nat
  | .pass => 0
  | .journal => 1
  | .readonly => 2
  | .closed => 3

/-- A PASS or DENY code: 0 or 1. -/
def passDenyOf (code : Nat) : Option PassDeny :=
  if code = 0 then some .pass else if code = 1 then some .deny else none

/-- The code of PASS or DENY. -/
def PassDeny.code : PassDeny → Nat
  | .pass => 0
  | .deny => 1

/-- The valid field of entry bytes: bit 0 of byte 0. -/
def entryValid (bytes : List Byte) : Bool := bitAt (byteAt bytes 0) 0

/-- The base of entry bytes: bytes 1 to 5. -/
def entryBase (bytes : List Byte) : Addr := BitVec.ofNat 40 (fieldAt bytes 1 5)

/-- The size of entry bytes in pages: bytes 6 to 9. -/
def entryPages (bytes : List Byte) : Nat := fieldAt bytes 6 4

/-- The policy of entry bytes: bits 3:1 of byte 0. -/
def entryPolicy (bytes : List Byte) : Option Policy := policyOf (byteAt bytes 0 / 2 % 8)

/-- The ungrouped field of entry bytes: bits 5:4 of byte 0. -/
def entryUngrouped (bytes : List Byte) : Option PassDeny := passDenyOf (byteAt bytes 0 / 16 % 4)

/-- The ten bytes that encode a table entry (R201), bits 7:6 of byte 0 zero. -/
def windowBytes (w : Window) : List Byte :=
  toByte (bitOf w.valid 1 + w.policy.code * 2 + w.ungrouped.code * 16) ::
    leBytes 5 w.base.toNat ++ leBytes 4 w.pages

/-- The flags byte of the echo triple: SHORT, LONG, ACCEPTED in bits 0, 1, 2. -/
def flagsByte (e : PendingEntry) : Byte :=
  toByte (bitOf e.short 1 + bitOf e.long 2 + bitOf e.accepted 4)

/-- The sum modulo 256 of bytes: the pending entry's check (R200). -/
def sumCheck (bytes : List Byte) : Byte := bytes.foldl (· + ·) 0#8

/-! ### Fault record bytes (chapter 11.4) -/

/-- The 20 bytes READ FAULT returns for a record; absent fields are zero, and so are bits 7:5 of the
presence byte (log 44). -/
def faultBytes (r : FaultRecord) : List Byte :=
  leBytes 2 r.seq.toNat ++ [toByte r.cause.code, toByte r.mode.code,
    toByte (bitOf r.stream.isSome 1 + bitOf r.serial.isSome 2 + bitOf r.addr.isSome 4 +
      bitOf r.count.isSome 8 + bitOf r.link.isSome 16),
    toByte (r.stream.getD 0)] ++
    leBytes 4 ((r.serial.map BitVec.toNat).getD 0) ++
    leBytes 5 ((r.addr.map BitVec.toNat).getD 0) ++
    leBytes 4 (r.count.getD 0) ++ [toByte (bitOf (r.link == some .lower) 1)]

/-! ### Response bytes (R194) -/

/-- The bytes of a held response: status, data length, data. -/
def responseBytes (r : Response) : List Byte :=
  toByte r.status.code :: toByte r.data.length :: r.data

/-- What a read transaction of `n` bytes returns: the held response from its first byte, 00h beyond
its end, and EMPTY with length 0 when none is held (R194). It changes nothing. -/
def readTransaction (s : State) (n : Nat) : List Byte :=
  let r := responseBytes (s.response.getD { status := .empty, data := [] })
  (r ++ zeros n).take n

end Sys2Proof.Machine
end

