-- ==== Sys2Proof/Machine/Flags.lean ====
section
/-! DEFINITION. The standing conditions of the part: comparisons, holds, reports, triggers and
capacities that the spec reads from the state and that no event stores. -/

namespace Sys2Proof.Machine

/-! ### Comparisons (R4) -/

/-- `a` is earlier than `b`: their 32-bit difference lies between 1 and 2^31 - 1 (R4). -/
def earlier (a b : Num32) : Bool := decide (1 ≤ (b - a).toNat) && decide ((b - a).toNat < 2 ^ 31)

/-- `x` is at or beyond `t` by the comparison of R4 (R108). -/
def atOrBeyond (x t : Num32) : Bool := x == t || earlier t x

/-- The earliest of a list of numbers (R4). -/
def earliest : List Num32 → Option Num32
  | [] => none
  | x :: xs =>
    match earliest xs with
    | none => some x
    | some y => some (if earlier y x then y else x)

/-- Insert an item before the first one whose key is later. -/
def insertByKey {α : Type} (key : α → Num32) (a : α) : List α → List α
  | [] => [a]
  | b :: bs => if earlier (key a) (key b) then a :: b :: bs else b :: insertByKey key a bs

/-- Items in rising order of their key by the comparison of R4. -/
def sortByKey {α : Type} (key : α → Num32) : List α → List α
  | [] => []
  | a :: as => insertByKey key a (sortByKey key as)

/-! ### Lines, units and addresses -/

/-- A line number: a byte address divided by 64 (00_scope.md 3). -/
def lineOf (a : Addr) : Nat := a.toNat / 64

/-- The data units a write of a length needs: ceil(length/16) (R48). -/
def unitsOf (length : Nat) : Nat := (length + 15) / 16

/-- The first and last bytes of an access lie in different lines. -/
def crossesLine (a : Addr) (length : Nat) : Bool := decide (64 < a.toNat % 64 + length)

/-- Two half-open byte ranges share a byte. -/
def rangesMeet (b₁ n₁ b₂ n₂ : Nat) : Bool :=
  decide (b₁ < b₂ + n₂) && decide (b₂ < b₁ + n₁) && decide (0 < n₁) && decide (0 < n₂)

/-- Bytes in a window. -/
def Window.bytes (w : Window) : Nat := w.pages * Config.pageBytes

/-- A byte address lies in a window. -/
def Window.covers (w : Window) (a : Nat) : Bool :=
  decide (w.base.toNat ≤ a) && decide (a < w.base.toNat + w.bytes)

/-! ### Reading the tables -/

/-- The group record of an index, absent when free. -/
def State.group? (s : State) (r : Nat) : Option Group := s.groups.getD r none

/-- A stream's state. -/
def State.stream (s : State) (i : Nat) : StreamState := s.streams.getD i .idle

/-- The read record of an index, absent when free. -/
def State.read? (s : State) (i : Nat) : Option ReadRecord := s.reads.getD i none

/-- The lower tag of a number; a number the part does not have is FREE. -/
def State.tag (s : State) (t : Nat) : LowerTag := s.tags.getD t .free

/-- The port on a link. -/
def State.port (s : State) : Link → Port
  | .upper => s.upper
  | .lower => s.lower

/-- The items of a table that are in use, with their indexes. -/
def inUse {α : Type} (table : List (Option α)) : List (Nat × α) :=
  table.zipIdx.filterMap fun p => p.1.map fun a => (p.2, a)

/-- The live groups with their record indexes (R25). -/
def State.liveGroups (s : State) : List (Nat × Group) := inUse s.groups

/-- The live groups that have closed, lowest serial first (R24, R36). -/
def State.closedGroups (s : State) : List (Nat × Group) :=
  sortByKey (fun p => p.2.serial.getD 0#32) (s.liveGroups.filter fun p => p.2.serial.isSome)

/-- The read records in use with their indexes. -/
def State.liveReads (s : State) : List (Nat × ReadRecord) := inUse s.reads

/-- The close intake number of a record's group, absent while it is OPEN. -/
def State.closeOf (s : State) (r : Nat) : Option Num32 := (s.group? r).bind Group.closeIntake

/-! ### Staging entries -/

/-- A PASS entry. -/
def Entry.isPass (e : Entry) : Bool :=
  match e.kind with
  | .pass _ => true
  | .member _ _ _ => false

/-- A PASS entry that is WAITING. -/
def Entry.isWaiting (e : Entry) : Bool := e.kind == .pass .waiting

/-- A MEMBER entry of a record. -/
def Entry.inRecord (r : Nat) (e : Entry) : Bool :=
  match e.kind with
  | .pass _ => false
  | .member r' _ _ => r' == r

/-- The MEMBER entry of a record and member index. -/
def Entry.isMember (r k : Nat) (e : Entry) : Bool :=
  match e.kind with
  | .pass _ => false
  | .member r' k' _ => r' == r && k' == k

/-- The staged member of a record and member index. -/
def State.member? (s : State) (r k : Nat) : Option Entry :=
  s.staging.entries.find? (Entry.isMember r k)

/-- Some visible write on line `line` whose effect point has an intake number earlier than `n` is
still unsent (R64): an earlier PASS entry, or a HELD member of a group closed earlier. It is the
read-hold question, and for a PASS entry with intake `n` the line-order question (R57). -/
def State.unsentBefore (s : State) (line : Nat) (n : Num32) : Bool :=
  s.staging.entries.any fun e =>
    lineOf e.addr == line &&
      match e.kind with
      | .pass _ => earlier e.intake n
      | .member r _ .held => (s.closeOf r).any fun c => earlier c n
      | .member _ _ .applied => false

/-- A PASS entry with intake `n` on line `line` is under the redo hold of a live group whose record
satisfies `p` (R58). -/
def State.redoHeldBy (s : State) (p : Nat → Bool) (line : Nat) (n : Num32) : Bool :=
  s.staging.entries.any fun e =>
    lineOf e.addr == line &&
      match e.kind with
      | .pass _ => false
      | .member r _ _ => p r && (s.closeOf r).any fun c => earlier c n

/-- A PASS entry is under the redo hold (R58). -/
def State.redoHeld (s : State) (e : Entry) : Bool :=
  s.redoHeldBy (fun _ => true) (lineOf e.addr) e.intake

/-- A PASS entry is sendable: WAITING, under no earlier unsent write and no redo hold (R58). -/
def State.sendable (s : State) (e : Entry) : Bool :=
  e.isWaiting && !s.unsentBefore (lineOf e.addr) e.intake && !s.redoHeld e

/-- The entry pass drain offers: the oldest sendable one (R62). -/
def State.drainEntry (s : State) : Option Entry := s.staging.entries.find? s.sendable

/-- Some PASS entry with an intake number earlier than `n` is still staged (R64). -/
def State.passBefore (s : State) (n : Num32) : Bool :=
  s.staging.entries.any fun e => e.isPass && earlier e.intake n

/-- Some PASS entry on line `line` is staged with an intake number earlier than `n` (R59). -/
def State.passOnLineBefore (s : State) (line : Nat) (n : Num32) : Bool :=
  s.staging.entries.any fun e => e.isPass && lineOf e.addr == line && earlier e.intake n

/-- Some READ record on line `line` is HELD or ISSUED with an intake number earlier than `n` (R103). -/
def State.readOnLineBefore (s : State) (line : Nat) (n : Num32) : Bool :=
  s.liveReads.any fun p =>
    match p.2.kind, p.2.state with
    | .read addr _, .held => lineOf addr == line && earlier p.2.intake n
    | .read addr _, .issued _ => lineOf addr == line && earlier p.2.intake n
    | _, _ => false

/-! ### The classifier (chapter 1) -/

/-- The ordering horizon (R4): the earliest intake number among staged PASS entries, closed groups
and live read records. -/
def State.horizon (s : State) : Option Num32 :=
  earliest ((s.staging.entries.filter Entry.isPass).map Entry.intake ++
    s.liveGroups.filterMap (fun p => p.2.closeIntake) ++ s.liveReads.map fun p => p.2.intake)

/-- The ordering-horizon hold (R4, R8). -/
def State.horizonHold (s : State) : Bool :=
  s.horizon.any fun h => decide (Config.horizonLimit ≤ (s.intake - h).toNat)

/-- A write that carries data and the group flag (R8, R28). -/
def Request.isGroupData (r : Request) : Bool := r.kind == .write && r.group && decide (1 ≤ r.length)

/-- The lowest free record index of a table. -/
def lowestFree {α : Type} (table : List (Option α)) : Option Nat := table.findIdx? Option.isNone

/-- The group-record hold (R8), judged before the form checks (log 10). -/
def State.recordHold (s : State) (r : Request) : Bool :=
  r.isGroupData && (s.stream r.stream).group.isNone && (lowestFree s.groups).isNone

/-- A request taken at the head is MALFORMED (R9). -/
def Request.malformed (r : Request) : Bool :=
  match r.kind with
  | .read => false
  | .reserved _ => true
  | .write =>
    decide (64 < r.length) || (decide (1 ≤ r.length) && crossesLine r.addr r.length) ||
      (r.close && decide (64 < r.count)) || (r.close && !r.group)

/-- The credits a request is charged on acceptance (R176). -/
def Request.charge (r : Request) : Amount :=
  match r.kind with
  | .read => { wh := 0, wd := 0, rd := 1 }
  | _ => { wh := 1, wd := if 64 < r.length then 4 else unitsOf r.length, rd := 0 }

/-- The window a byte address falls in, if any (R5). -/
def State.windowAt (s : State) (a : Nat) : Option Window :=
  s.windows.find? fun w => w.valid && w.covers a

/-- The line verdict of the line that holds a byte (R6). -/
def State.verdict (s : State) (addr : Addr) : Verdict :=
  let a := lineOf addr * 64
  if s.config.any fun c => decide (c.moduleSize ≤ a) then .beyond
  else if s.config.any fun c => decide (c.base.toNat ≤ a) && decide (a < c.base.toNat + c.size) then
    .journalRegion
  else
    match s.windowAt a with
    | some w => .window w.policy w.ungrouped
    | none => .default s.params.default

/-- Whether a verdict allows a write without the group flag (R11). -/
def Verdict.allowsPass : Verdict → Bool
  | .window .pass _ => true
  | .window .journal .pass => true
  | .window .journal .deny => false
  | .window .readonly _ => false
  | .window .closed _ => false
  | .default .pass => true
  | .default .deny => false
  | .journalRegion => false
  | .beyond => false

/-- Whether a verdict is WINDOW with policy JOURNAL (R13, R30). -/
def Verdict.isJournal : Verdict → Bool
  | .window .journal _ => true
  | _ => false

/-- Whether a verdict allows a read (R101). -/
def Verdict.allowsRead : Verdict → Bool
  | .beyond => false
  | .window .closed _ => false
  | _ => true

/-! ### Journal geometry (R71, R72) -/

/-- The ring size S in lines (R71). -/
def JournalConfig.ring (c : JournalConfig) : Nat := c.size / 64 - 2

/-- The module address of a line of the journal region (R72). -/
def JournalConfig.lineAddr (c : JournalConfig) (i : Nat) : Addr := c.base + BitVec.ofNat 40 (64 * i)

/-- The line index of a journal position (R72). -/
def JournalConfig.posLine (c : JournalConfig) (p : Pos) : Nat := 2 + p.toNat % c.ring

/-- The module address of a journal position (R72). -/
def JournalConfig.posAddr (c : JournalConfig) (p : Pos) : Addr := c.lineAddr (c.posLine p)

/-- A group's journal footprint 2m + 1 (R72). -/
def footprint (m : Nat) : Nat := 2 * m + 1

/-- The number of free lines S - (head - tail), 0 while the journal state is unset (R73). -/
def State.freeLines (s : State) : Nat :=
  match s.config, s.journal.head, s.ckpt.tail with
  | some c, some h, some t => c.ring - (h - t).toNat
  | _, _, _ => 0

/-! ### Groups, checkpoints and flushes -/

/-- A group state from which recovery is not yet assured: CLOSED, JOURNALING, COMMITTING (R96, R107). -/
def GroupState.uncommitted : GroupState → Bool
  | .closed => true
  | .journaling => true
  | .committing => true
  | _ => false

/-- A group state from COMMITTED onward (R83). -/
def GroupState.isCommitted : GroupState → Bool
  | .committed => true
  | .applying => true
  | .applied => true
  | _ => false

/-- The live groups that are CLOSED, JOURNALING or COMMITTING, lowest serial first. -/
def State.uncommittedGroups (s : State) : List (Nat × Group) :=
  s.closedGroups.filter fun p => p.2.state.uncommitted

/-- The candidate run (R89): the APPLIED groups that begin with the lowest live serial. -/
def State.candidateRun (s : State) : List (Nat × Group) :=
  s.closedGroups.takeWhile fun p => p.2.state == .applied

/-- The pressure condition of R65: checkpoint trigger (d). -/
def State.pressure (s : State) : Bool :=
  decide (s.staging.freeEntries < Config.pressureEntries) ||
    decide (s.staging.freeUnits < Config.pressureUnits)

/-- The redo-hold report of R60: checkpoint trigger (c). -/
def State.redoReport (s : State) : Bool :=
  s.staging.entries.any fun e =>
    e.isWaiting &&
      s.redoHeldBy (fun r => s.candidateRun.any fun p => p.1 == r) (lineOf e.addr) e.intake

/-- Checkpoint trigger (e): no live group is between CLOSED and APPLYING (R89). -/
def State.noneMoving (s : State) : Bool := s.closedGroups.all fun p => p.2.state == .applied

/-- One of the checkpoint triggers (a) to (e) holds (R89). -/
def State.ckptTrigger (s : State) : Bool :=
  decide (s.params.batch ≤ s.candidateRun.length) || s.journal.spaceWait || s.redoReport ||
    s.pressure || s.noneMoving

/-- No live group with a serial below the bound, of the streams `p` admits, is CLOSED, JOURNALING or
COMMITTING (R107, R111). -/
def State.groupsSafe (s : State) (p : Nat → Bool) (bound : Option Num32) : Bool :=
  s.uncommittedGroups.all fun g =>
    !(p g.2.stream && bound.any fun b => g.2.serial.any fun n => earlier n b)

/-- The lowest FREE lower tag (R183). -/
def State.freeTag (s : State) : Option Nat := s.tags.findIdx? fun t => t == .free

/-! ### Credits -/

/-- The credits of `l` not yet spent against `c` (R175). -/
def unconsumed (limit consumed : Limits) : Amount :=
  { wh := (limit.wh - consumed.wh).toNat, wd := (limit.wd - consumed.wd).toNat,
    rd := (limit.rd - consumed.rd).toNat }

/-- Sum of two amounts. -/
def Amount.add (a b : Amount) : Amount := { wh := a.wh + b.wh, wd := a.wd + b.wd, rd := a.rd + b.rd }

/-- One amount is no more than another in every kind. -/
def Amount.fits (a b : Amount) : Bool :=
  decide (a.wh ≤ b.wh) && decide (a.wd ≤ b.wd) && decide (a.rd ≤ b.rd)

/-- A cumulative number raised by an amount, each kind modulo its width. -/
def Limits.raise (l : Limits) (a : Amount) : Limits :=
  { wh := l.wh + BitVec.ofNat 8 a.wh, wd := l.wd + BitVec.ofNat 12 a.wd,
    rd := l.rd + BitVec.ofNat 8 a.rd }

/-- The value when it is below half the range, else 0 (R181). -/
def belowHalf (half n : Nat) : Nat := if n < half then n else 0

/-- The LLP's available credit (R181). -/
def State.lowerAvailable (s : State) : Amount :=
  let u := unconsumed s.lowerCredits.limit s.lowerCredits.consumed
  { wh := belowHalf 128 u.wh, wd := belowHalf 2048 u.wd, rd := belowHalf 128 u.rd }

/-- The modes in which returned credits are advertised (R178). -/
def Mode.advertises : Mode → Bool
  | .operating => true
  | .halted => true
  | _ => false

/-- The modes in which the SAFE line is asserted (R150). -/
def Mode.isSafeLine : Mode → Bool
  | .safe => true
  | .halted => true
  | _ => false

/-! ### Retry buffers -/

/-- The unacknowledged packets of the lower retry buffer that are not marked for re-send (R162, R171). -/
def LowerPacket.live (p : LowerPacket) : Bool := !p.acked && !p.resend

/-- The sequences of a port's unacknowledged packets, oldest first (R162). -/
def State.unackedSeqs (s : State) : Link → List Seq
  | .upper => s.upperRetry.map UpperPacket.seq
  | .lower => (s.lowerRetry.filter LowerPacket.live).map LowerPacket.seq

/-- How many packets of a port's retry buffer are unacknowledged, those marked for re-send among them
(R164, R170). -/
def State.unackedCount (s : State) : Link → Nat
  | .upper => s.upperRetry.length
  | .lower => s.lowerRetry.countP fun p => !p.acked

/-- Some packet is still marked for re-send (R171). -/
def State.resendPending (s : State) : Bool := s.lowerRetry.any LowerPacket.resend

end Sys2Proof.Machine
end

