-- ==== Sys2Proof/Machine/Ops.lean ====
section
/-! DEFINITION. The shared small operations: one home for every change of a table, a line, a
credit pool, a mark or the fault list. -/

namespace Sys2Proof.Machine

/-! ### Lines, mode and fault list -/

/-- Record what the part sends, in the order sent (log 1). -/
def State.emit (s : State) (u : Sent) : State := { s with sent := s.sent ++ [u] }

/-- Change the mode; the SAFE line changes with it in the same event (R150). -/
def State.setMode (s : State) (m : Mode) : State := { s with mode := m, safeLine := m.isSafeLine }

/-- The optional fields of a fault record (R204). -/
structure FaultFields where
  stream : Option Nat := none
  serial : Option Num32 := none
  addr : Option Addr := none
  count : Option Nat := none
  link : Option Link := none
  deriving DecidableEq, Repr

/-- The fault list with a record at its end, the oldest removed when it held 32 (R204). -/
def pushFault (faults : List FaultRecord) (r : FaultRecord) : List FaultRecord :=
  (if faults.length < Config.faultRecords then faults else faults.drop 1) ++ [r]

/-- Append a fault record with the mode in which its event arrived (R136, R204). -/
def State.appendFaultIn (s : State) (mode : Mode) (cause : Cause) (f : FaultFields) : State :=
  { s with
    faults := pushFault s.faults
      { seq := s.faultSeq, cause := cause, mode := mode, stream := f.stream, serial := f.serial,
        addr := f.addr, count := f.count, link := f.link }
    faultSeq := s.faultSeq + 1#16
    alert := true }

/-- Append a fault record whose event arrived in the present mode. -/
def State.appendFault (s : State) (cause : Cause) (f : FaultFields) : State :=
  s.appendFaultIn s.mode cause f

/-! ### Ports -/

/-- Replace the port on a link. -/
def State.setPort (s : State) (l : Link) (p : Port) : State :=
  match l with
  | .upper => { s with upper := p }
  | .lower => { s with lower := p }

/-! ### Upper credits (R175 to R178) -/

/-- Move the whole of each pool to its limit and set CREDIT due (R178). -/
def UpperCredits.advertise (c : UpperCredits) : UpperCredits :=
  { c with limit := c.limit.raise c.pool, pool := .zero, due := true }

/-- The credit state after a return of `a`: the pools rise, and where returns are advertised go on to
the limits; a return of nothing changes nothing (R177, R178). -/
def UpperCredits.giveBack (c : UpperCredits) (advertises : Bool) (a : Amount) : UpperCredits :=
  if a == .zero then c
  else if advertises then { c with pool := c.pool.add a }.advertise
  else { c with pool := c.pool.add a }

/-- Credits come back to the return pools, and in OPERATING and HALTED go on to the limits (R177, R178). -/
def State.returnCredits (s : State) (a : Amount) : State :=
  { s with credits := s.credits.giveBack s.mode.advertises a }

/-- The credits of a new link session: unconsumed credits go back to the pools, counts and limits
start at 0, and in OPERATING and HALTED the pools move to the limits (R179). -/
def UpperCredits.newSession (c : UpperCredits) (advertises : Bool) : UpperCredits :=
  let pool := c.pool.add (unconsumed c.limit c.consumed)
  if advertises then
    { c with consumed := .zero, limit := Limits.zero.raise pool, pool := .zero }
  else
    { c with consumed := .zero, limit := .zero, pool := pool }

/-! ### Tables -/

/-- Change a group record in use. -/
def State.modifyGroup (s : State) (r : Nat) (f : Group → Group) : State :=
  { s with groups := s.groups.modify r (Option.map f) }

/-- Free a group record (R25). -/
def State.freeGroup (s : State) (r : Nat) : State := { s with groups := s.groups.set r none }

/-- Change a stream's state. -/
def State.modifyStream (s : State) (i : Nat) (f : StreamState → StreamState) : State :=
  { s with streams := s.streams.modify i f }

/-- Change a read record in use. -/
def State.modifyRead (s : State) (i : Nat) (f : ReadRecord → ReadRecord) : State :=
  { s with reads := s.reads.modify i (Option.map f) }

/-- Put a lower tag in a state. -/
def State.setTag (s : State) (t : Nat) (v : LowerTag) : State := { s with tags := s.tags.set t v }

/-! ### Staging store (R49 to R54) -/

/-- Append an entry at the tail; the free counts fall (R49, R50). -/
def State.stage (s : State) (e : Entry) : State :=
  { s with
    staging :=
      { entries := s.staging.entries ++ [e]
        freeEntries := s.staging.freeEntries - 1
        freeUnits := s.staging.freeUnits - unitsOf e.length } }

/-- The data units a list of entries holds. -/
def totalUnits (es : List Entry) : Nat := (es.map fun e => unitsOf e.length).sum

/-- Free the entries that satisfy `p`: they leave the list, the free counts rise, and one WH and
their units as WD return for each, all in this event (R52 to R54). -/
def State.freeEntriesBy (s : State) (p : Entry → Bool) : State :=
  let out := s.staging.entries.filter p
  let s := { s with
    staging :=
      { entries := s.staging.entries.filter fun e => !p e
        freeEntries := s.staging.freeEntries + out.length
        freeUnits := s.staging.freeUnits + totalUnits out } }
  s.returnCredits { wh := out.length, wd := totalUnits out, rd := 0 }

/-- Free the first entry that satisfies `p` (R51). -/
def State.freeEntryOnce (s : State) (p : Entry → Bool) : State :=
  match s.staging.entries.find? p with
  | none => s
  | some e =>
    let s := { s with
      staging :=
        { entries := s.staging.entries.eraseP p
          freeEntries := s.staging.freeEntries + 1
          freeUnits := s.staging.freeUnits + unitsOf e.length } }
    s.returnCredits { wh := 1, wd := unitsOf e.length, rd := 0 }

/-- Change the kind of the entries that satisfy `p`. -/
def State.mapEntries (s : State) (p : Entry → Bool) (f : EntryKind → EntryKind) : State :=
  { s with
    staging := { s.staging with
      entries := s.staging.entries.map fun e => if p e then { e with kind := f e.kind } else e } }

/-- The state APPLIED for a MEMBER entry (R59). -/
def EntryKind.toApplied : EntryKind → EntryKind
  | .pass st => .pass st
  | .member r k _ => .member r k .applied

/-- The state ABANDONED for a PASS entry (R66). -/
def EntryKind.toAbandoned : EntryKind → EntryKind
  | .pass _ => .pass .abandoned
  | .member r k st => .member r k st

/-! ### Marks (R108) -/

/-- An OK fence's recorded pass-send count raises the durable mark if it is beyond it (R184). -/
def State.raiseDurable (s : State) (count : Num32) : State :=
  { s with marks := { s.marks with
    durable := if earlier s.marks.durable count then count else s.marks.durable } }

/-- A fence grant: the granted mark takes the pass-send count (R108, R189). -/
def State.markGranted (s : State) : State :=
  { s with marks := { s.marks with granted := s.marks.passSend } }

/-- Pass drain has sent one more PASS entry (R108). -/
def State.countPassSend (s : State) : State :=
  { s with marks := { s.marks with passSend := s.marks.passSend + 1#32 } }

/-! ### Journal engine and checkpoint unit -/

/-- Change the journal engine. -/
def State.withJournal (s : State) (f : Journal → Journal) : State :=
  { s with journal := f s.journal }

/-- Change the checkpoint unit. -/
def State.withCkpt (s : State) (f : Checkpoint → Checkpoint) : State := { s with ckpt := f s.ckpt }

/-- Change the checkpoint in flight. -/
def State.withFlight (s : State) (f : CkptFlight → CkptFlight) : State :=
  s.withCkpt fun c => { c with flight := c.flight.map f }

/-- Change the recovery engine. -/
def State.withRecovery (s : State) (f : Recovery → Recovery) : State :=
  { s with recovery := f s.recovery }

/-- Change the recovery engine's scan. -/
def State.withScan (s : State) (f : Scan → Scan) : State :=
  s.withRecovery fun r => { r with scan := r.scan.map f }

/-- Hold a response (R194). -/
def State.respond (s : State) (status : RespStatus) (data : List Byte) : State :=
  { s with response := some { status := status, data := data } }

end Sys2Proof.Machine
end

