-- ==== Sys2Proof/Machine/Groups.lean ====
section
/-! DEFINITION. The group unit (chapter 2): opening, members, fault causes, closes, discards, and
the discard counts a stream flush takes and gives back. -/

namespace Sys2Proof.Machine

/-! ### Discards -/

/-- A stream's discard count rises by one, saturating, and its last cause is replaced (R38). -/
def StreamState.countDiscard (st : StreamState) (cause : Cause) : StreamState :=
  { st with discards := min Config.discardMax (st.discards + 1), lastCause := some cause }

/-- Discard the group of a record (R37). `mode` is the mode its event arrived in. -/
def State.discard (s : State) (mode : Mode) (cause : Cause) (r : Nat) : State :=
  match s.group? r with
  | none => s
  | some g =>
    ((((s.freeEntriesBy (Entry.inRecord r)).modifyStream g.stream fun st =>
      { st with group := none }).modifyStream g.stream fun st => st.countDiscard cause).appendFaultIn
        mode cause { stream := some g.stream, count := some g.count }).freeGroup r

/-- Discard a stream's group if the stream is OPEN. -/
def State.discardStream (mode : Mode) (cause : Cause) (s : State) (i : Nat) : State :=
  match (s.stream i).group with
  | none => s
  | some r => s.discard mode cause r

/-- Discard every OPEN group in ascending order of stream number (R40, R41). -/
def State.discardOpen (s : State) (mode : Mode) (cause : Cause) : State :=
  (List.range Config.streams).foldl (State.discardStream mode cause) s

/-! ### Members -/

/-- The signature with a write's line counted in (R32). -/
def signWrite (sig : Sig) (addr : Addr) : Sig := sig + BitVec.ofNat 16 (lineOf addr)

/-- The fault cause a write meets, by the checks in order (R30). -/
def faultCheck (inJournal : Bool) (r : Request) (count : Nat) : Option Cause :=
  if !inJournal then some .stray
  else if r.poison then some .poisoned
  else if Config.maxMembers ≤ count then some .oversize
  else none

/-- The group after a write that is dropped: still counted, to 64, and signed (R31). -/
def Group.dropWrite (g : Group) (cause : Cause) (addr : Addr) : Group :=
  { g with fault := some cause, count := min Config.maxMembers (g.count + 1),
           sig := signWrite g.sig addr }

/-- The group after a write that becomes a member (R29). -/
def Group.addMember (g : Group) (addr : Addr) : Group :=
  { g with members := g.members ++ [g.count], count := g.count + 1, sig := signWrite g.sig addr }

/-- A data-carrying group write at its group's record: dropped with its credits returned when the
group has or takes a fault cause, else staged as a member (R29 to R31). -/
def State.memberWrite (s : State) (n : Num32) (r : Request) (inJournal : Bool) (i : Nat)
    (g : Group) : State :=
  match (g.fault <|> faultCheck inJournal r g.count) with
  | some cause => (s.modifyGroup i fun g => g.dropWrite cause r.addr).returnCredits r.charge
  | none =>
    (s.stage { intake := n, addr := r.addr, length := r.length, data := r.data,
               kind := .member i g.count .held, poison := false }).modifyGroup i
      fun g => g.addMember r.addr

/-- Open a group for a stream in a free record (R28). -/
def State.openGroup (s : State) (stream i : Nat) : State :=
  { s with groups := s.groups.set i (some (.fresh stream)) }.modifyStream stream
    fun st => { st with group := some i }

/-- A data-carrying group write, opening its stream's group if the stream is IDLE (R28, R29). -/
def State.groupData (s : State) (n : Num32) (r : Request) (inJournal : Bool) : State :=
  match (s.stream r.stream).group with
  | some i =>
    match s.group? i with
    | some g => s.memberWrite n r inJournal i g
    | none => s
  | none =>
    match lowestFree s.groups with
    | some i => (s.openGroup r.stream i).memberWrite n r inJournal i (.fresh r.stream)
    | none => s

/-! ### Closes -/

/-- The group becomes CLOSED: it takes the serial counter's value, its stream returns to IDLE, and it
joins the journal engine's queue (R36). No close is judged while the counter is unset (R24). -/
def State.closeGroup (s : State) (n : Num32) (i : Nat) (g : Group) : State :=
  match s.serial with
  | none => s
  | some serial =>
    (({ s with serial := some (serial + 1#32) }.modifyGroup i fun g =>
      { g with state := .closed, serial := some serial, closeIntake := some n }).modifyStream
        g.stream fun st => { st with group := none }).withJournal
          fun j => { j with queue := j.queue ++ [i] }

/-- The judgement of a close at its stream's OPEN group (R35). -/
def State.judgeClose (s : State) (n : Num32) (r : Request) (i : Nat) (g : Group) : State :=
  match g.fault with
  | some cause => s.discard s.mode cause i
  | none =>
    if g.count = r.count ∧ g.sig = r.sig then s.closeGroup n i g
    else s.discard s.mode .tallyMismatch i

/-- A close without data on an IDLE stream (R34). -/
def State.emptyClose (s : State) (r : Request) : State :=
  if r.count = 0 then s
  else
    (s.modifyStream r.stream fun st => st.countDiscard .tallyMismatch).appendFault .tallyMismatch
      { stream := some r.stream, count := some 0 }

/-- A close at its stream (R34, R35). -/
def State.close (s : State) (n : Num32) (r : Request) : State :=
  match (s.stream r.stream).group with
  | none => s.emptyClose r
  | some i =>
    match s.group? i with
    | some g => s.judgeClose n r i g
    | none => s

/-- A group write with data: a member first, then a close if it carries the close flag (R33). -/
def State.groupWrite (s : State) (n : Num32) (r : Request) (inJournal : Bool) : State :=
  let s := s.groupData n r inJournal
  if r.close then s.close n r else s

/-! ### The discard counts (R39) -/

/-- Clear a stream's discard count and last cause: the take of R39. -/
def State.clearDiscards (s : State) (i : Nat) : State :=
  s.modifyStream i fun st => { st with discards := 0, lastCause := none }

/-- Give a taken count and cause back: the restore of R39. -/
def State.restoreDiscards (s : State) (i : Nat) (t : Taken) : State :=
  s.modifyStream i fun st =>
    { st with discards := min Config.discardMax (st.discards + t.count)
              lastCause := st.lastCause <|> t.cause }

/-! ### Window changes (R43) -/

/-- Some live group has a member whose line lies in the `bytes` bytes from `base` (R43). -/
def State.memberInRange (s : State) (base bytes : Nat) : Bool :=
  s.staging.entries.any fun e => !e.isPass && rangesMeet (lineOf e.addr * 64) 64 base bytes

end Sys2Proof.Machine
end

