-- ==== Sys2Proof/Machine/ReadUnit.lean ====
section
/-! DEFINITION. The read unit and the flush unit (chapter 5): records, checks, completions, the
flush conditions, orphaning. -/

namespace Sys2Proof.Machine

/-! ### Forming and dropping completions -/

/-- Free a read record and return its read credit (R106, R114). -/
def State.freeRead (s : State) (i : Nat) : State :=
  { s with reads := s.reads.set i none }.returnCredits { wh := 0, wd := 0, rd := 1 }

/-- Drop the completion of an orphaned record: the record is freed, its read credit returned, and a
taken discard count restored (R39, R114), in every mode, HALTED and SAFE included (R44; log 38). -/
def State.dropRead (s : State) (i : Nat) : State :=
  match s.read? i with
  | none => s
  | some rec =>
    match rec.kind with
    | .streamFlush st _ (some t) => (s.freeRead i).restoreDiscards st t
    | _ => s.freeRead i

/-- A record enters DONE with a completion; an orphaned record's is dropped in the same event, any
other joins the formed completions (R106, R114). A restore thus comes before the take of a later flush of
the same event (log 42). -/
def State.formRead (s : State) (i : Nat) (status : Status) (data : List Byte) : State :=
  match s.read? i with
  | none => s
  | some rec =>
    let s := s.modifyRead i fun rec =>
      { rec with state := .done { tag := rec.tag, status := status, data := data } }
    if rec.orphan then s.dropRead i else { s with formed := s.formed ++ [.record i] }

/-! ### Checks of a read or flush handed over (R100, R101, R116) -/

/-- A record the duplicate-tag comparison leaves out: orphaned, or DONE with REFUSED (R100). -/
def ReadRecord.leftOut (rec : ReadRecord) : Bool :=
  rec.orphan ||
    match rec.state with
    | .done c => c.status == .refused
    | _ => false

/-- A tag is in use by a record the comparison counts (R100). -/
def State.duplicateTag (s : State) (tag : UTag) : Bool :=
  s.liveReads.any fun p => !p.2.leftOut && p.2.tag == tag

/-- A read or flush is malformed (R101). -/
def Request.readMalformed (r : Request) : Bool :=
  r.close || (decide (1 ≤ r.length) && decide (r.length ≤ 64) && r.group) ||
    decide (64 < r.length) || (decide (1 ≤ r.length) && crossesLine r.addr r.length)

/-- The completion a read or flush gets at once, if any: FAILED in HALTED, REFUSED for a duplicate
tag or a wrong form, DENIED for its verdict (R100, R101, R116). -/
def State.readVerdict (s : State) (r : Request) : Option Status :=
  if s.mode = .halted then some .failed
  else if s.duplicateTag r.tag then some .refused
  else if r.readMalformed then some .refused
  else if 1 ≤ r.length ∧ (s.verdict r.addr).allowsRead = false then some .denied
  else none

/-- The kind of record a READ request makes, a flush with the serial counter as its bound (R14, R99). -/
def State.readKind (s : State) (r : Request) : ReadKind :=
  if 1 ≤ r.length then .read r.addr r.length
  else if r.group then .streamFlush r.stream s.serial none
  else .globalFlush s.serial none

/-- The read unit allocates the lowest free record for a read or flush and judges it (R99 to R101,
R102, R107, R111). The credit law keeps a record free; with none free nothing is done (log 21). -/
def State.handRead (s : State) (n : Num32) (r : Request) (orphan : Bool) : State :=
  match lowestFree s.reads with
  | none => s
  | some i =>
    let rec' : ReadRecord :=
      { tag := r.tag, kind := s.readKind r, intake := n, orphan := orphan,
        state := if 1 ≤ r.length then .held else .waiting }
    let placed := { s with reads := s.reads.set i (some rec') }
    match s.readVerdict r with
    | some status => placed.formRead i status []
    | none => placed

/-! ### Flush conditions (R107 to R112) -/

/-- The pass target of a global flush: kept once set, set when no earlier PASS entry is staged (R108). -/
def State.flushTarget (s : State) (n : Num32) : Option Num32 → Option Num32
  | some t => some t
  | none => if s.passBefore n then none else some s.marks.passSend

/-- The data of a stream flush completion (R112). -/
def takenBytes (t : Taken) : List Byte := [toByte t.count, toByte (causeCode t.cause), 0#8, 0#8]

/-- A stream flush whose condition holds takes its stream's count and cause and is DONE (R112). -/
def State.takeStreamFlush (s : State) (i stream : Nat) (bound : Option Num32) : State :=
  let t : Taken := { count := (s.stream stream).discards, cause := (s.stream stream).lastCause }
  ((s.clearDiscards stream).modifyRead i fun rec =>
    { rec with kind := .streamFlush stream bound (some t) }).formRead i
      (if t.count = 0 then .ok else .lost) (takenBytes t)

/-- Examine one WAITING flush (R108, R110, R112). -/
def State.settleFlush (s : State) (i : Nat) : State :=
  match s.read? i with
  | none => s
  | some rec =>
    match rec.state, rec.kind with
    | .waiting, .globalFlush bound target =>
      let target := s.flushTarget rec.intake target
      let s := s.modifyRead i fun rec => { rec with kind := .globalFlush bound target }
      if s.groupsSafe (fun _ => true) bound && target.any (atOrBeyond s.marks.durable) then
        s.formRead i .ok []
      else s
    | .waiting, .streamFlush stream bound _ =>
      if s.groupsSafe (· == stream) bound then s.takeStreamFlush i stream bound else s
    | _, _ => s

/-- The indexes of the records in use, earliest intake first (R106, R112). -/
def State.readOrder (s : State) : List Nat :=
  (sortByKey (fun p => p.2.intake) s.liveReads).map Prod.fst

/-- Examine every WAITING flush, earliest first (R112). Flushes wait in OPERATING only (R115, R116). Each
is finished before the next is examined: an orphan's restore precedes a later flush's take (log 42). -/
def State.settleFlushes (s : State) : State :=
  if s.mode = .operating then s.readOrder.foldl State.settleFlush s else s

/-- Some WAITING global flush has its pass target set with the durable and granted marks both short of
it: the FLUSH-FENCE source's condition (R109). -/
def State.flushFenceWanted (s : State) : Bool :=
  s.liveReads.any fun p =>
    match p.2.state, p.2.kind with
    | .waiting, .globalFlush _ (some t) =>
      !atOrBeyond s.marks.durable t && !atOrBeyond s.marks.granted t
    | _, _ => false

/-- The record READ-ISSUE offers: the ready HELD read with the earliest intake number (R102, R104). -/
def State.readyRead (s : State) : Option Nat :=
  s.readOrder.find? fun i =>
    match s.read? i with
    | none => false
    | some rec =>
      match rec.state, rec.kind with
      | .held, .read addr _ => !s.unsentBefore (lineOf addr) rec.intake
      | _, _ => false

/-! ### Answers, failures, orphans -/

/-- Detach a lower tag from its read record (R115, R116). -/
def State.detachTag (s : State) (t : Nat) : State :=
  match s.tag t with
  | .outstanding info => s.setTag t (.outstanding { info with detached := true })
  | _ => s

/-- Complete a record FAILED unless it is DONE; an ISSUED read is detached from its tag (R115, R116). -/
def State.failRead (s : State) (i : Nat) : State :=
  match s.read? i with
  | none => s
  | some rec =>
    match rec.state with
    | .done _ => s
    | .issued t => (s.detachTag t).formRead i .failed []
    | .held => s.formRead i .failed []
    | .waiting => s.formRead i .failed []

/-- Complete every record not in DONE with FAILED, earliest intake first (R106, R115, R116). -/
def State.failReads (s : State) : State := s.readOrder.foldl State.failRead s

/-- The completion of a module answer to a requester read (R105). -/
def answerStatus : ModStatus → Status
  | .ok => .ok
  | .poisoned => .poisoned
  | .error => .failed
  | .other => .failed

/-- The data a completion of that status carries (R105). -/
def answerData (a : Answer) : List Byte :=
  match a.status with
  | .ok => a.data
  | .poisoned => a.data
  | .error => []
  | .other => []

/-- The module's answer to a requester read reaches its record (R105). -/
def State.answerRead (s : State) (i : Nat) (a : Answer) : State :=
  s.formRead i (answerStatus a.status) (answerData a)

/-- Mark a record orphan (R113). -/
def State.orphanRead (s : State) (i : Nat) : State :=
  s.modifyRead i fun rec => { rec with orphan := true }

/-- Drop a formed completion at an upper link DOWN (R18, R114). -/
def State.dropFormed (s : State) : Formed → State
  | .record i => s.dropRead i
  | .direct _ => s

/-- An upper link DOWN at the read unit: every record in use is an orphan, and every formed completion
the ULP has not taken is dropped, newest first (R18, R113, R114; log 18). -/
def State.orphanReads (s : State) : State :=
  let s := (s.liveReads.map Prod.fst).foldl State.orphanRead s
  let formed := s.formed
  (formed.reverse.foldl State.dropFormed { s with formed := [] })

end Sys2Proof.Machine
end

