-- ==== Sys2Proof/Machine/Links.lean ====
section
/-! DEFINITION. The link layer of both ports (chapter 8): training, acknowledgement, replay,
retrain, link DOWN, re-send, and the charging of lower packets (R182). -/

namespace Sys2Proof.Machine

/-! ### Port states -/

/-- The sequence fields and the accepted count at their starting values (R155, R156; log 13). -/
def Port.newSession (p : Port) : Port :=
  { p with nextTx := 0#12, expRx := 0#12, lastAcc := 4095#12, unacked := 0 }

/-- The port's record as it enters DOWN from an open session (R167, R170, R160). -/
def Port.atDown (p : Port) : Port :=
  { p.newSession with ackTimer := false, nakOut := false, replayCount := 0, replayTimer := false,
                      trainTimer := false, state := .down }

/-- The port's record as it starts training, the INIT sent (R155). -/
def Port.atTraining (p : Port) : Port :=
  { p with state := .training, initSent := true, initRecv := false, trainTimer := true }

/-- The port's record as it enters RETRAIN, the INIT sent (R164). -/
def Port.atRetrain (p : Port) (byPartner : Bool) : Port :=
  { p with state := .retrain, nakOut := false, replayTimer := false, ackTimer := false,
           replayCount := 0, initSent := true, initRecv := byPartner, trainTimer := true }

/-- The LLP's record at entry into HALTED (R173; log 14). -/
def Port.atHalt (p : Port) : Port :=
  { p with state := .down, heldDown := true, trainTimer := false, replayTimer := false,
           ackTimer := false, nakOut := false }

/-! ### Sending link units -/

/-- The limits a port's INIT carries: the ULP's own, and zero from the LLP (R154, R179). -/
def State.initLimits (s : State) : Link → Limits
  | .upper => s.credits.limit
  | .lower => .zero

/-- Send an INIT (R154). -/
def State.sendInit (s : State) (l : Link) (kind : TrainKind) (reply : Bool) : State :=
  s.emit (.unit l (.init kind reply (s.initLimits l)))

/-- Send an ACK: the accepted count returns to 0 and the ack timer stops (R159). -/
def State.sendAck (s : State) (l : Link) : State :=
  (s.setPort l { s.port l with unacked := 0, ackTimer := false }).emit
    (.unit l (.ack (s.port l).lastAcc))

/-- Send a NAK unless one is outstanding (R160). -/
def State.sendNak (s : State) (l : Link) : State :=
  if (s.port l).nakOut then s
  else
    (s.setPort l { s.port l with nakOut := true }).emit (.unit l (.nak (s.port l).lastAcc))

/-- Send a CREDIT unit with the current upper limits: CREDIT due is cleared and the refresh timer
restarts (R180). -/
def State.sendCredit (s : State) : State :=
  { s with credits := { s.credits with due := false, refresh := true } }.emit
    (.unit .upper (.credit s.credits.limit))

/-! ### The lower retry buffer and its tags -/

/-- The lower tag a request carries (R169). -/
def LowerBody.tag? : LowerBody → Option Nat
  | .write _ _ _ _ => none
  | .read _ _ t => some t
  | .fence t => some t

/-- A lower tag is OUTSTANDING. -/
def LowerTag.isOutstanding : LowerTag → Bool
  | .outstanding _ => true
  | _ => false

/-- A SPENT tag with no packet left in the buffer becomes FREE (R183). -/
def releaseTag (buffer : List LowerPacket) (tag : LowerTag) (number : Nat) : LowerTag :=
  match tag with
  | .spent t => if buffer.any fun p => p.body.tag? == some number then .spent t else .free
  | t => t

/-- Replace the lower retry buffer; a SPENT tag whose packet has left becomes FREE (R169, R183). -/
def State.setLowerRetry (s : State) (buffer : List LowerPacket) : State :=
  { s with lowerRetry := buffer
           tags := s.tags.zipIdx.map fun p => releaseTag buffer p.1 p.2 }

/-- A request whose answer is still owed: its tag is OUTSTANDING. A write is owed nothing. -/
def State.answerOwed (s : State) (b : LowerBody) : Bool :=
  b.tag?.any fun t => (s.tag t).isOutstanding

/-- Packets that are acknowledged and owed no answer leave the buffer (R162, R169). -/
def State.pruneLower (s : State) : State :=
  s.setLowerRetry (s.lowerRetry.filter fun p => !p.acked || s.answerOwed p.body)

/-- A request stays in the buffer at a lower link DOWN: a write, or one whose tag is OUTSTANDING (R170). -/
def State.staysAtDown (s : State) (b : LowerBody) : Bool := b.tag?.isNone || s.answerOwed b

/-! ### Charging and sending lower packets -/

/-- The charge of a lower packet (R182). -/
def LowerBody.charge : LowerBody → Amount
  | .write _ _ data _ => { wh := 1, wd := unitsOf data.length, rd := 0 }
  | .read _ _ _ => { wh := 0, wd := 0, rd := 1 }
  | .fence _ => { wh := 0, wd := 0, rd := 1 }

/-- Charge a packet against the module's credits and count a transmission: the next transmit sequence
advances and the replay timer runs (R161, R182). -/
def State.chargeLower (s : State) (b : LowerBody) : State :=
  { s with
    lowerCredits :=
      { s.lowerCredits with consumed := s.lowerCredits.consumed.raise b.charge }
    lower := { s.lower with nextTx := s.lower.nextTx + 1#12, replayTimer := true } }

/-- Send a new packet on the lower link: it joins the end of the retry buffer (R161, R182, R186). -/
def State.sendLower (s : State) (b : LowerBody) : State :=
  let seq := s.lower.nextTx
  let s := s.chargeLower b
  let packet : LowerPacket := { seq := seq, body := b, acked := false, resend := false }
  State.emit { s with lowerRetry := s.lowerRetry ++ [packet] } (.request seq b)

/-- The re-send: packets marked for re-send go out in order, up to the first that lacks credit (R171).
`done` holds the packets already passed. -/
def State.resendGo (s : State) (done : List LowerPacket) : List LowerPacket → State
  | [] => { s with lowerRetry := done }
  | p :: rest =>
    if p.resend then
      if p.body.charge.fits s.lowerAvailable then
        ((s.chargeLower p.body).emit (.request s.lower.nextTx p.body)).resendGo
          (done ++ [{ p with seq := s.lower.nextTx, resend := false }]) rest
      else { s with lowerRetry := done ++ p :: rest }
    else s.resendGo (done ++ [p]) rest

/-- Go on with the re-send while the lower link is UP; SAFE sends no transaction packet (R171, R173). -/
def State.resend (s : State) : State :=
  if s.lower.state = .up ∧ s.mode ≠ .safe then s.resendGo [] s.lowerRetry else s

/-- The re-send after an event of a link: only the lower link's events concern it (R171). -/
def State.resendOn (s : State) : Link → State
  | .upper => s
  | .lower => s.resend

/-! ### Replay (R163) -/

/-- The unacknowledged packets of a port, as they are sent again (R163). -/
def State.replayUnits (s : State) : Link → List Sent
  | .upper => s.upperRetry.map fun p => .completion p.seq p.completion
  | .lower => (s.lowerRetry.filter LowerPacket.live).map fun p => .request p.seq p.body

/-- A port may send transaction packets: SAFE stops the LLP's (R173). -/
def State.mayTransmit (s : State) : Link → Bool
  | .upper => true
  | .lower => s.mode != .safe

/-- Send every unacknowledged packet again and run the replay timer; nothing if there is none. -/
def State.replay (s : State) (l : Link) : State :=
  if (s.replayUnits l).isEmpty then s
  else
    { s with sent := s.sent ++ s.replayUnits l }.setPort l { s.port l with replayTimer := true }

/-! ### Training, UP, RETRAIN and DOWN -/

/-- The ULP's credit records at the start of upper training (R179). -/
def State.newCreditSession (s : State) : Link → State
  | .upper => { s with credits := s.credits.newSession s.mode.advertises }
  | .lower => s

/-- Start training (R155, R179). -/
def State.startTraining (s : State) (l : Link) : State :=
  let s := s.newCreditSession l
  (s.setPort l (s.port l).atTraining).sendInit l .train false

/-- The upper link enters DOWN from UP or RETRAIN (R167), and starts training. -/
def State.upperDown (s : State) : State :=
  let count := s.upperRetry.length
  let s := { s with upper := s.upper.atDown, upperRetry := []
                    credits := { s.credits with refresh := false } }.orphanReads
  let s := if s.queue.getLast? = some .linkDownMarker then s
    else { s with queue := s.queue ++ [.linkDownMarker] }
  (s.appendFault .upperLinkDown { link := some .upper, count := some count }).startTraining .upper

/-- The lower link enters DOWN from UP or RETRAIN (R170), and starts training. -/
def State.lowerDown (s : State) : State :=
  let kept := s.lowerRetry.filter fun p => s.staysAtDown p.body
  let s := s.setLowerRetry (kept.map fun p => { p with acked := false, resend := true })
  let s := { s with
    lower := s.lower.atDown
    lowerCredits := .zero
    claims := .none
    holdTimer := s.holdTimer <|> some s.params.holdTime }
  (s.appendFault .lowerLinkDown { link := some .lower, count := some kept.length }).startTraining
    .lower

/-- A link enters DOWN from UP or RETRAIN and starts training. -/
def State.linkDown (s : State) : Link → State
  | .upper => s.upperDown
  | .lower => s.lowerDown

/-- The module's limits are taken on the lower link; the requester's are not used (R154, R181). -/
def State.takeLimits (s : State) (l : Link) (limits : Limits) : State :=
  match l with
  | .upper => s
  | .lower => { s with lowerCredits := { s.lowerCredits with limit := limits } }

/-- What entry into UP does beside the port's record: the refresh timer starts (R180), the lower hold
timer stops (R172). -/
def State.upTimers (s : State) : Link → State
  | .upper => { s with credits := { s.credits with refresh := true } }
  | .lower => { s with holdTimer := none }

/-- The lower link's consumed counts start at 0 in a new session (R181). -/
def State.newLowerSession (s : State) : Link → State
  | .upper => s
  | .lower => { s with lowerCredits := { s.lowerCredits with consumed := .zero } }

/-- The link enters UP out of TRAINING: a new session, and on the lower link the re-send (R156, R171). -/
def State.upFromTraining (s : State) (l : Link) : State :=
  let s := s.setPort l { (s.port l).newSession with state := .up, trainTimer := false }
  ((s.newLowerSession l).upTimers l).resendOn l

/-- The link returns to UP from RETRAIN: every unacknowledged packet is replayed without raising the
replay count (R164), and a re-send that waited for credit at the entry into RETRAIN goes on after the
replay (R171; log 41). -/
def State.upFromRetrain (s : State) (l : Link) : State :=
  let s := (s.setPort l { s.port l with state := .up, trainTimer := false }).upTimers l
  (if s.mayTransmit l then s.replay l else s).resendOn l

/-- The link enters UP when INIT sent and INIT received are both set (R156). -/
def State.tryUp (s : State) (l : Link) : State :=
  if (s.port l).initSent ∧ (s.port l).initRecv then
    match (s.port l).state with
    | .training => s.upFromTraining l
    | .retrain => s.upFromRetrain l
    | _ => s
  else s

/-- A link enters RETRAIN from UP, at its own replay limit or on the partner's INIT; the record counts
every unacknowledged packet of the buffer (R164). On the partner's INIT both INIT flags are set and the
link returns to UP in this event (log 12). -/
def State.enterRetrain (s : State) (l : Link) (byPartner : Bool) : State :=
  let count := s.unackedCount l
  let s := s.setPort l ((s.port l).atRetrain byPartner)
  let s := match l with
    | .upper => { s with credits := { s.credits with refresh := false } }
    | .lower => s
  ((s.sendInit l .retrain byPartner).appendFault .retrain
    { link := some l, count := some count }).tryUp l

/-- A matching INIT in TRAINING or RETRAIN (R156). -/
def State.matchingInit (s : State) (l : Link) (kind : TrainKind) (reply : Bool) (limits : Limits) :
    State :=
  let s := (s.takeLimits l limits).setPort l { s.port l with initRecv := true }
  (if reply then s else s.sendInit l kind true).tryUp l

/-- A good INIT against the link state (R156, R157). An INIT that R157 ignores changes nothing of the
handshake; in UP or RETRAIN it still replaces the module's limits of chapter 9 (R181; log 11), and a re-send
that waits for credit goes on (R171). -/
def State.handleInit (s : State) (l : Link) (kind : TrainKind) (reply : Bool) (limits : Limits) :
    State :=
  match (s.port l).state, kind, reply with
  | .down, _, _ => s
  | .training, .train, _ => s.matchingInit l kind reply limits
  | .training, .retrain, _ => s
  | .retrain, .retrain, _ => s.matchingInit l kind reply limits
  | .retrain, .train, false => s.linkDown l
  | .retrain, .train, true => s.takeLimits l limits
  | .up, .train, false => s.linkDown l
  | .up, .train, true => (s.takeLimits l limits).resendOn l
  | .up, .retrain, false => (s.takeLimits l limits).enterRetrain l true
  | .up, .retrain, true => (s.takeLimits l limits).resendOn l

/-- A good CREDIT unit: on the lower link in UP or RETRAIN it replaces the limits, and the re-send
goes on; elsewhere it is ignored (R154, R181, R171). -/
def State.handleCredit (s : State) (l : Link) (limits : Limits) : State :=
  match (s.port l).state with
  | .up => (s.takeLimits l limits).resendOn l
  | .retrain => s.takeLimits l limits
  | _ => s

/-! ### ACK and NAK (R162) -/

/-- How many of the unacknowledged packets a sequence acknowledges, absent when it is not valid. -/
def ackCount (seqs : List Seq) (nextTx n : Seq) : Option Nat :=
  match seqs with
  | [] => if n + 1#12 = nextTx then some 0 else none
  | oldest :: _ => if n + 1#12 = oldest then some 0 else (seqs.findIdx? (· == n)).map (· + 1)

/-- Mark the first `k` unacknowledged packets acknowledged. -/
def ackFirst : Nat → List LowerPacket → List LowerPacket
  | _, [] => []
  | 0, p :: rest => p :: rest
  | k + 1, p :: rest =>
    if p.live then { p with acked := true } :: ackFirst k rest else p :: ackFirst (k + 1) rest

/-- Acknowledge the `k` oldest unacknowledged packets of a port (R162, R169). -/
def State.ackPackets (s : State) (l : Link) (k : Nat) : State :=
  match l with
  | .upper => { s with upperRetry := s.upperRetry.drop k }
  | .lower => { s with lowerRetry := ackFirst k s.lowerRetry }.pruneLower

/-- Forward progress: the replay count returns to 0, and the replay timer restarts if unacknowledged
packets remain, else stops; SAFE does not start the LLP's (R162, R173). -/
def State.forwardProgress (s : State) (l : Link) : State :=
  s.setPort l { s.port l with
    replayCount := 0, replayTimer := !(s.unackedSeqs l).isEmpty && s.mayTransmit l }

/-- A valid acknowledgement of `k` packets (R162). -/
def State.acknowledge (s : State) (l : Link) (k : Nat) : State :=
  if k = 0 then s else (s.ackPackets l k).forwardProgress l

/-- The link states in which an ACK or NAK is judged (R162). -/
def LinkState.judgesAck : LinkState → Bool
  | .up => true
  | .retrain => true
  | _ => false

/-- A good ACK (R162). -/
def State.handleAck (s : State) (l : Link) (n : Seq) : State :=
  if (s.port l).state.judgesAck then
    match ackCount (s.unackedSeqs l) (s.port l).nextTx n with
    | none => s
    | some k => s.acknowledge l k
  else s

/-- A counted replay, or RETRAIN at the replay limit (R163). -/
def State.countedReplay (s : State) (l : Link) : State :=
  if (s.port l).replayCount < Config.replayLimit then
    (s.setPort l { s.port l with replayCount := (s.port l).replayCount + 1 }).replay l
  else s.enterRetrain l false

/-- A good NAK: it acknowledges with every effect of an ACK, the replay timer's among them (log 40), and in
UP what remains unacknowledged is replayed (R162, R163, R173). -/
def State.handleNak (s : State) (l : Link) (n : Seq) : State :=
  if (s.port l).state.judgesAck then
    match ackCount (s.unackedSeqs l) (s.port l).nextTx n with
    | none => s
    | some k =>
      let s := s.acknowledge l k
      if (s.port l).state = .up ∧ (s.unackedSeqs l).isEmpty = false ∧ s.mayTransmit l = true then
        s.countedReplay l
      else s
  else s

/-- A damaged transaction packet: a NAK in UP, nothing in another state (R158, R160). -/
def State.damaged (s : State) (l : Link) : State :=
  if (s.port l).state = .up then s.sendNak l else s

/-! ### Timer expiries of a port -/

/-- The ack timer's expiry (R159). -/
def State.ackExpiry (s : State) (l : Link) : State :=
  if (s.port l).ackTimer then s.sendAck l else s

/-- The replay timer's expiry: a counted replay in UP; in another state the timer only stops (R163;
log 13). -/
def State.replayExpiry (s : State) (l : Link) : State :=
  if (s.port l).replayTimer then
    let s := s.setPort l { s.port l with replayTimer := false }
    if (s.port l).state = .up ∧ s.mayTransmit l = true then s.countedReplay l else s
  else s

/-- The training timer's expiry: from TRAINING training starts again, from RETRAIN the session ends
(R156). -/
def State.trainingExpiry (s : State) (l : Link) : State :=
  if (s.port l).trainTimer then
    match (s.port l).state with
    | .training => s.startTraining l
    | .retrain => s.linkDown l
    | _ => s
  else s

end Sys2Proof.Machine
end

