-- ==== Sys2Proof/Machine/Modes.lean ====
section
/-! DEFINITION. The mode controller (chapter 7): entry into each mode, the error reports of R141, the
hold-up purge of R18, and the completion of hold-up. -/

namespace Sys2Proof.Machine

/-! ### The purge of the intake queue (R18, R19) -/

/-- Answer a read or flush FAILED without a record: its credits return, and the completion joins the
formed ones unless the upper link is not UP or the request's session has ended (R18). -/
def State.failDirect (s : State) (r : Request) (orphan : Bool) : State :=
  let s := s.returnCredits r.charge
  if s.upper.state = .up ∧ orphan = false then
    { s with formed := s.formed ++ [.direct { tag := r.tag, status := .failed, data := [] }] }
  else s

/-- Purge one item: a write or a request of reserved kind is dropped with its credits returned, a read
or flush is answered FAILED, a marker is removed (R18). -/
def State.purgeItem (s : State) (orphan : Bool) : QueueItem → State
  | .request r =>
    match r.kind with
    | .read => s.failDirect r orphan
    | .write => s.returnCredits r.charge
    | .reserved _ => s.returnCredits r.charge
  | .linkDownMarker => s
  | .holdupMarker => s

/-- Purge items in queue order; a request is orphaned by a LINK_DOWN marker behind it (R18). -/
def State.purgeItems (s : State) : List QueueItem → State
  | [] => s
  | item :: rest => (s.purgeItem (rest.contains .linkDownMarker) item).purgeItems rest

/-- Discard what is left of the intake queue as HOLDUP does: the credits of a request return to the
pools, a read or flush is answered FAILED without a record, a marker is removed (R18, R19). -/
def State.purgeQueue (s : State) : State := { s.purgeItems s.queue with queue := [] }

/-! ### SAFE, HALTED, OPERATING -/

/-- Enter SAFE: the SAFE line is asserted, the budget timer and the LLP's replay timer stop (R149,
R173). -/
def State.enterSafe (s : State) : State :=
  { s.setMode .safe with budgetTimer := none, lower := { s.lower with replayTimer := false } }

/-- End HOLDUP in SAFE. By then the requests accepted during HOLDUP have been discarded (R20, R149); the
model discards in this event those that HOLDUP_INTAKE has not reached, before the mode changes (log 37). -/
def State.leaveHoldup (s : State) : State := s.purgeQueue.enterSafe

/-- Enter HALTED: the record, the mode, the lower link held DOWN, the hold timer stopped, the upper
credits advertised, and every record not in DONE FAILED (R139, R116, R173, R178). -/
def State.enterHalted (s : State) (cause : Cause) (f : FaultFields) : State :=
  let s := (s.appendFault cause f).setMode .halted
  State.failReads { s with
    lower := s.lower.atHalt
    holdTimer := none
    lowerCredits := .zero
    claims := .none
    credits := s.credits.advertise }

/-- Enter OPERATING at the end of a recovery: the upper credits are advertised and the recovery engine
returns to IDLE (R138, R178, R119; log 31). -/
def State.enterOperating (s : State) : State :=
  { s.setMode .operating with credits := s.credits.advertise, recovery := .idle }

/-! ### Error reports (R141) -/

/-- MEDIA_ERROR or LOWER_LOSS, by the mode in which it arrives (R139, R141). -/
def State.reportError (s : State) (cause : Cause) (f : FaultFields) : State :=
  match s.mode with
  | .operating => s.enterHalted cause f
  | .recovering => s.enterHalted cause f
  | .holdup => (s.appendFault cause f).leaveHoldup
  | .unconfigured => s
  | .safe => s
  | .halted => s

/-- The report MEDIA_ERROR (R84, R94, R110, R132, R145). -/
def State.mediaError (s : State) (f : FaultFields) : State := s.reportError .mediaError f

/-- The report LOWER_LOSS at the hold timer's expiry, which leaves the timer stopped (R172, R185). -/
def State.lowerLoss (s : State) : State :=
  State.reportError { s with holdTimer := none } .lowerLoss { link := some .lower }

/-- The report RECOVERY_FAILED (R123, R139). -/
def State.recoveryFailed (s : State) : State := s.enterHalted .recoveryFailed {}

/-! ### Completion of hold-up (R144 to R146) -/

/-- The PASS entries in the staging store. -/
def State.passEntries (s : State) : List Entry := s.staging.entries.filter Entry.isPass

/-- The journal engine's hold-up work is complete (R96). -/
def State.journalWorkDone (s : State) : Bool := s.uncommittedGroups.isEmpty

/-- Pass drain's hold-up work is complete: no PASS entry remains, or every one is under the redo hold
and no checkpoint is in flight (R66). -/
def State.drainWorkDone (s : State) : Bool :=
  s.passEntries.isEmpty || (s.ckpt.flight.isNone && s.passEntries.all s.redoHeld)

/-- Mark the journal part complete (R144). -/
def State.markJournalDone (s : State) : State :=
  if s.journalWorkDone then { s with hold := { s.hold with journalDone := true } } else s

/-- Pass drain's report: the remaining PASS entries become ABANDONED, their number is recorded, and the
pass target takes the pass-send count (R66, R144). -/
def State.reportDrain (s : State) : State :=
  { s.mapEntries Entry.isPass EntryKind.toAbandoned with
    hold := { s.hold with
      drainDone := true, target := some s.marks.passSend, abandoned := s.passEntries.length } }

/-- Mark the pass-drain part complete, once (R144). -/
def State.markDrainDone (s : State) : State :=
  if s.hold.drainDone then s else if s.drainWorkDone then s.reportDrain else s

/-- Mark the final-fence part complete: the durable mark is at or beyond the pass target (R144). -/
def State.markFenceDone (s : State) : State :=
  if s.hold.target.any (atOrBeyond s.marks.durable) then
    { s with hold := { s.hold with fenceDone := true } }
  else s

/-- The three parts are complete. -/
def HoldWork.complete (h : HoldWork) : Bool := h.journalDone && h.drainDone && h.fenceDone

/-- End the hold-up when its three parts are complete: HOLDUP_DONE, then SAFE (R146). -/
def State.finishHoldup (s : State) : State :=
  if s.hold.complete then
    (s.appendFaultIn .holdup .holdupDone { count := some s.hold.abandoned }).leaveHoldup
  else s

/-- Examine the hold-up work, at the end of an event in HOLDUP (R144, R146; log 20). -/
def State.settleHoldup (s : State) : State :=
  if s.mode = .holdup then s.markJournalDone.markDrainDone.markFenceDone.finishHoldup else s

/-! ### Entry into HOLDUP (R143, R18) -/

/-- The purge: the HOLDUP marker is placed at the tail, every item ahead of it is purged, and the
marker, then at the head, is removed (R18). -/
def State.purge (s : State) : State :=
  { State.purgeItems { s with queue := [.holdupMarker] } s.queue with queue := [] }

/-- Enter HOLDUP: the budget timer starts, the hold-up work is outstanding, records fail, the queue is
purged, and every OPEN group is discarded with cause POWER (R143, R115, R18, R41; log 23). -/
def State.enterHoldup (s : State) : State :=
  let s := { s.setMode .holdup with budgetTimer := some s.params.budget, hold := .outstanding }
  s.failReads.purge.discardOpen .operating .power

/-- The transition of the first event in which PFW_N is found asserted (R137). -/
def State.pfwTransition (s : State) : State :=
  match s.mode with
  | .unconfigured => s.enterSafe
  | .recovering => s.enterSafe
  | .operating => s.enterHoldup
  | .holdup => s
  | .safe => s
  | .halted => s

/-! ### Budget expiry (R147) -/

/-- The fields of a HOLDUP_EXPIRED record: the number of groups not yet committed, and the lowest serial
among them if there is one (R147). -/
def State.expiryFields (s : State) : FaultFields :=
  { count := some s.uncommittedGroups.length
    serial := s.uncommittedGroups.head?.bind fun p => p.2.serial }

/-- The budget timer's expiry in HOLDUP (R147). -/
def State.budgetExpiry (s : State) : State :=
  if s.mode = .holdup then (s.appendFault .holdupExpired s.expiryFields).leaveHoldup else s

end Sys2Proof.Machine
end

