-- ==== Sys2Proof/Machine/Journal.lean ====
section
/-! DEFINITION. The journal engine, the apply engine and the checkpoint unit (chapter 4), apart from
what they offer the arbiter. -/

namespace Sys2Proof.Machine

/-! ### Reservation (R78, R79) -/

/-- The modes in which the journal engine works (R77). -/
def Mode.journals : Mode → Bool
  | .operating => true
  | .holdup => true
  | _ => false

/-- Reserve a group's lines at the head: it enters JOURNALING as the current group (R78). -/
def State.reserveGroup (s : State) (r : Nat) (rest : List Nat) (m : Nat) (head : Pos) : State :=
  (s.modifyGroup r fun g =>
    { g with state := .journaling, start := some head, lines := some (footprint m) }).withJournal
      fun j =>
        { j with head := some (head + BitVec.ofNat 48 (footprint m)), queue := rest
                 current := some { record := r, phase := .body 0 }, spaceWait := false }

/-- Whether the group at the front of the queue waits for ring space (R77, R79). -/
def State.setSpaceWait (s : State) (waits : Bool) : State :=
  s.withJournal fun j => { j with spaceWait := waits }

/-- The test of the space for the group at the front of the queue (R78, R79). With too few free lines it
waits for space, whether or not a group is being written; with enough it is reserved, unless a current group
is still being written, and then it waits for that group and no longer for space (log 39). -/
def State.reserve (s : State) : State :=
  match s.journal.queue, s.journal.head with
  | r :: rest, some head =>
    match s.group? r with
    | none => s
    | some g =>
      if s.mode.journals then
        if s.freeLines < footprint g.count then s.setSpaceWait true
        else if s.journal.current.isSome then s.setSpaceWait false
        else s.reserveGroup r rest g.count head
      else s
  | _, _ => s

/-! ### Commitment (R83, R84) -/

/-- The live closed group of a serial, with its record index. -/
def State.groupOfSerial (s : State) (n : Num32) : Option (Nat × Group) :=
  s.closedGroups.find? fun p => p.2.serial == some n

/-- Every live group of serial lower than `n` is COMMITTED, APPLYING or APPLIED (R83). -/
def State.lowerCommitted (s : State) (n : Num32) : Bool :=
  s.closedGroups.all fun p => p.2.state.isCommitted || !(p.2.serial.any fun m => earlier m n)

/-- The group of a record becomes COMMITTED. -/
def State.commitGroup (s : State) (r : Nat) : State :=
  s.modifyGroup r fun g => { g with state := .committed }

/-- A fence-complete group that no lower serial holds back any longer becomes COMMITTED (R83). -/
def State.followCommit (s : State) (r : Nat) : State :=
  match s.group? r with
  | none => s
  | some g =>
    if g.state = .committing ∧ g.fenceComplete = true ∧ g.serial.any s.lowerCommitted = true then
      s.commitGroup r
    else s

/-- A group fence completed OK (R83): the group is COMMITTED, and fence-complete groups behind it follow
in serial order; or it is marked fence-complete. -/
def State.groupFenceOk (s : State) (n : Num32) : State :=
  match s.groupOfSerial n with
  | none => s
  | some (r, g) =>
    if g.state = .committing then
      if s.lowerCommitted n then
        (s.closedGroups.map Prod.fst).foldl State.followCommit (s.commitGroup r)
      else s.modifyGroup r fun g => { g with fenceComplete := true }
    else s

/-- A group fence completed (R83, R84). -/
def State.groupFence (s : State) (n : Num32) (status : ModStatus) : State :=
  if status = .ok then s.groupFenceOk n else s.mediaError { serial := some n }

/-! ### Checkpoint (R89 to R94) -/

/-- The group is covered by a checkpoint's run. -/
def CkptFlight.covers (f : CkptFlight) (g : Group) : Bool :=
  g.serial.any fun n => !earlier n f.firstSerial && !earlier f.lastSerial n

/-- The record indexes of the covered groups. -/
def State.coveredRecords (s : State) (f : CkptFlight) : List Nat :=
  (s.closedGroups.filter fun p => f.covers p.2).map Prod.fst

/-- Fence B completed OK: the covered groups and their entries are freed, tail, generation and slot move
on, the checkpoint ends, and the space is tested again if the front group waits for it (R92, R52, R79). -/
def State.retire (s : State) (f : CkptFlight) : State :=
  let records := s.coveredRecords f
  let s := s.freeEntriesBy fun e => records.any fun r => e.inRecord r
  let s := records.foldl State.freeGroup s
  let s := s.withCkpt fun c =>
    { c with tail := some f.newTail, generation := c.generation.map (· + 1#32)
             slot := c.generation.map fun g => (g + 1#32).toNat % 2, flight := none }
  if s.journal.spaceWait then s.reserve else s

/-- Fence A or fence B completed with a status other than OK (R94). -/
def State.ckptFenceError (s : State) : State :=
  s.mediaError { serial := s.ckpt.flight.map CkptFlight.lastSerial }

/-- Fence A completed (R91, R94). -/
def State.fenceADone (s : State) (status : ModStatus) : State :=
  if status = .ok then s.withFlight fun f => { f with phase := .anchor } else s.ckptFenceError

/-- Fence B completed (R92, R94). -/
def State.fenceBDone (s : State) (status : ModStatus) : State :=
  if status = .ok then
    match s.ckpt.flight with
    | none => s
    | some f => s.retire f
  else s.ckptFenceError

/-- The checkpoint in flight that starts now over the candidate run, if the run is whole (R88, R89). -/
def State.newFlight (s : State) : Option CkptFlight :=
  match s.candidateRun.head?, s.candidateRun.getLast? with
  | some (_, a), some (_, b) =>
    match a.serial, b.serial, b.start, b.lines with
    | some first, some last, some start, some lines =>
      some { firstSerial := first, lastSerial := last
             newTail := start + BitVec.ofNat 48 lines, newNextSerial := last + 1#32
             phase := .fenceA, sentA := false, sentAnchor := false, sentB := false }
    | _, _, _, _ => none
  | _, _ => none

/-- The conditions of a checkpoint's start (R89). -/
def State.mayCheckpoint (s : State) : Bool :=
  s.mode == .operating && s.ckpt.flight.isNone && !s.candidateRun.isEmpty && s.ckptTrigger

/-- Start a checkpoint when its conditions hold (R89). -/
def State.startCheckpoint (s : State) : State :=
  if s.mayCheckpoint then s.withCkpt fun c => { c with flight := s.newFlight } else s

/-! ### Apply engine (R85) -/

/-- The group the apply engine would take: the lowest-serial live group that is not APPLIED, if it is
COMMITTED (R85). -/
def State.applyCandidate (s : State) : Option Nat :=
  match s.closedGroups.find? fun p => p.2.state != .applied with
  | some (r, g) => if g.state = .committed then some r else none
  | none => none

/-- The apply engine takes a group (R85). -/
def State.takeApply (s : State) : State :=
  match s.apply, s.applyCandidate with
  | none, some r =>
    if s.mode = .operating then
      { s.modifyGroup r fun g => { g with state := .applying } with
        apply := some { record := r, next := 0 } }
    else s
  | _, _ => s

end Sys2Proof.Machine
end

