-- ==== Sys2Proof/Machine/Recovery.lean ====
section
/-! DEFINITION. The recovery engine (chapter 6), apart from what it offers the arbiter: the anchors,
the scan and its judgements, REDO, and the end of a recovery. -/

namespace Sys2Proof.Machine

/-! ### Start (R118, R119) -/

/-- The recovery engine as START leaves it: phase ANCHORS, and the epoch parameter kept for a FRESH
start (R118, R119). -/
def Recovery.started (fresh : Bool) (epoch : Num32) : Recovery :=
  { Recovery.idle with
    phase := .anchors
    kind := some (if fresh then .fresh else .normal)
    epochParam := if fresh then some epoch else none }

/-! ### Anchors (R121 to R124) -/

/-- The recorded answer of an anchor slot. -/
def Recovery.anchorAt (r : Recovery) (slot : Nat) : Option Answer :=
  if slot = 0 then r.anchor0 else r.anchor1

/-- A valid anchor's fields, absent for an invalid one (R121, R122). -/
def validAnchor (size slot : Nat) (a : Answer) : Option Anchor :=
  let anchor := parseAnchor a.data
  if a.status = .ok ∧ byteAt a.data 0 = 0xA3 ∧ recordGood a.data = true ∧ anchor.size = size ∧
      anchor.generation.toNat % 2 = slot then
    some anchor
  else none

/-- The valid anchor of a slot. -/
def State.slotAnchor (s : State) (slot : Nat) : Option Anchor :=
  match s.config, s.recovery.anchorAt slot with
  | some c, some a => validAnchor c.size slot a
  | _, _ => none

/-- The higher-generation valid anchor, with its slot (R123, R124). -/
def State.bestAnchor (s : State) : Option (Nat × Anchor) :=
  match s.slotAnchor 0, s.slotAnchor 1 with
  | none, none => none
  | some a, none => some (0, a)
  | none, some b => some (1, b)
  | some a, some b => if earlier a.generation b.generation then some (1, b) else some (0, a)

/-- The anchor a FRESH start writes (R124). -/
def State.freshAnchor (s : State) (size : Nat) : Anchor :=
  let base : Anchor :=
    { epoch := s.recovery.epochParam.getD 0#32, generation := 1#32, tail := 0#48,
      nextSerial := 1#32, size := size }
  match s.bestAnchor with
  | none => base
  | some (_, a) => { base with epoch := a.epoch + 1#32, generation := a.generation + 1#32 }

/-- The scan as it begins from the selected anchor (R123). -/
def Scan.start (slot : Nat) (a : Anchor) : Scan :=
  { sel := { slot := slot, epoch := a.epoch, generation := a.generation, tail := a.tail,
             nextSerial := a.nextSerial }
    g := a.tail, s := a.nextSerial, m := none, sig := 0#16, judged := a.tail, buffer := [],
    nextRedo := 0, ended := false }

/-- The engine selects an anchor for a normal start, or fails (R123). -/
def State.selectAnchor (s : State) : State :=
  match s.bestAnchor with
  | none => s.recoveryFailed
  | some (slot, a) =>
    s.withRecovery fun r => { r with phase := .scan, scan := some (.start slot a) }

/-- With both anchors answered, the engine judges them and goes on (R121, R123, R124). -/
def State.judgeAnchors (s : State) : State :=
  match s.recovery.anchor0, s.recovery.anchor1 with
  | some _, some _ =>
    if s.recovery.kind = some .fresh then s.withRecovery fun r => { r with phase := .freshAnchor }
    else s.selectAnchor
  | _, _ => s

/-- The answer of an anchor read is recorded, and its read is no longer in flight (R121). -/
def Recovery.recordAnchor (r : Recovery) (slot : Nat) (a : Answer) : Recovery :=
  { r with
    anchor0 := if slot = 0 then some a else r.anchor0
    anchor1 := if slot = 0 then r.anchor1 else some a
    inFlight := r.inFlight.filter fun x => x.target != .line slot }

/-- A status of ERROR or any value other than OK and POISONED (R121, R132). -/
def ModStatus.isError : ModStatus → Bool
  | .ok => false
  | .poisoned => false
  | .error => true
  | .other => true

/-- An anchor's answer arrives: MEDIA_ERROR for a bad one in a normal start, else it is recorded (R121,
R132; log 15). -/
def State.anchorAnswer (s : State) (slot : Nat) (a : Answer) : State :=
  let s := s.withRecovery fun r => r.recordAnchor slot a
  if a.status.isError ∧ s.recovery.kind = some .normal then
    s.mediaError { addr := s.config.map fun c => c.lineAddr slot }
  else s.judgeAnchors

/-! ### The scan (R125 to R128) -/

/-- The offset of a position within the group under examination. -/
def Scan.offset (sc : Scan) (p : Pos) : Nat := (p - sc.g).toNat

/-- Lines from the selected tail to the group under examination. -/
def Scan.span (sc : Scan) : Nat := (sc.g - sc.sel.tail).toNat

/-- No group fits at g below the limit: the room check fails (R125). -/
def Scan.noRoom (sc : Scan) (ring : Nat) : Bool := decide (ring ≤ sc.span + 2)

/-- A group of m members at g passes the limit: the range check fails (R125). -/
def Scan.outOfRange (sc : Scan) (ring m : Nat) : Bool := decide (ring ≤ sc.span + 2 * m)

/-- A read in flight that has its answer. -/
def RecRead.answered (r : RecRead) : Bool := r.answer.isSome

/-- When the scan has ended and no recovery read is outstanding, the engine enters FENCE 1 (R128). -/
def Recovery.closeScan (r : Recovery) : Recovery :=
  if r.inFlight.isEmpty then { r with phase := .fence1 } else r

/-- End the scan at g: held answers are discarded, outstanding ones awaited (R128). -/
def State.endScan (s : State) : State :=
  s.withRecovery fun r =>
    Recovery.closeScan { r with
      scan := r.scan.map fun sc => { sc with ended := true }
      inFlight := r.inFlight.filter fun x => !x.answered }

/-- The target of a descriptor lies in one line, below the module size and outside the journal region
(R126). -/
def JournalConfig.targetGood (c : JournalConfig) (target : Addr) (length : Nat) : Bool :=
  let a := lineOf target * 64
  !crossesLine target length && decide (a < c.moduleSize) &&
    !(decide (c.base.toNat ≤ a) && decide (a < c.base.toNat + c.size))

/-- The epoch and serial fields of a journal line are those the scan expects. -/
def Scan.expects (sc : Scan) (line : List Byte) : Bool :=
  fieldAt line 4 4 == sc.sel.epoch.toNat && fieldAt line 8 4 == sc.s.toNat

/-- The member count a descriptor may carry: 1 to 64, and m once it is known (R126). -/
def Scan.countGood (sc : Scan) (count : Nat) : Bool :=
  decide (1 ≤ count) && decide (count ≤ 64) && sc.m.all fun m => count == m

/-- The line judged as member k's descriptor passes (R126). -/
def Scan.descriptorGood (sc : Scan) (c : JournalConfig) (k : Nat) (a : Answer) : Bool :=
  let line := a.data
  a.status == .ok && byteAt line 0 == 0xA1 && sc.expects line && byteAt line 12 == k &&
    recordGood line && sc.countGood (byteAt line 13) && decide (1 ≤ byteAt line 14) &&
    decide (byteAt line 14 ≤ 64) &&
    c.targetGood (BitVec.ofNat 40 (fieldAt line 16 5)) (byteAt line 14)

/-- The scan after a descriptor has passed: its entry joins the buffer, its line number the signature;
member 0's also gives m and begins the signature (R126). -/
def Scan.takeDescriptor (sc : Scan) (k : Nat) (line : List Byte) : Scan :=
  let target : Addr := BitVec.ofNat 40 (fieldAt line 16 5)
  let entry : BufferEntry :=
    { target := target, length := byteAt line 14, check := BitVec.ofNat 32 (fieldAt line 56 4),
      data := [] }
  { sc with
    m := some (byteAt line 13)
    sig := (if k = 0 then 0#16 else sc.sig) + BitVec.ofNat 16 (lineOf target)
    buffer := sc.buffer ++ [entry] }

/-- The line judged as member k's data line passes (R127). -/
def Scan.dataGood (sc : Scan) (k : Nat) (a : Answer) : Bool :=
  a.status == .ok && sc.buffer[k]?.any fun e => crc32 a.data == e.check.toNat

/-- The scan after a data line has passed (R127). -/
def Scan.takeData (sc : Scan) (k : Nat) (line : List Byte) : Scan :=
  { sc with buffer := sc.buffer.modify k fun e => { e with data := line.take e.length } }

/-- The line judged as the commit line passes (R127). -/
def Scan.commitGood (sc : Scan) (m : Nat) (a : Answer) : Bool :=
  let line := a.data
  a.status == .ok && byteAt line 0 == 0xA2 && sc.expects line && byteAt line 13 == m &&
    fieldAt line 16 6 == sc.g.toNat && fieldAt line 14 2 == sc.sig.toNat && recordGood line

/-- Replace the scan, its judged position moved on. -/
def State.putScan (s : State) (sc : Scan) : State :=
  s.withRecovery fun r => { r with scan := some { sc with judged := sc.judged + 1#48 } }

/-- Member k's descriptor is judged: it passes, subject for k = 0 to the range check, or the scan ends
(R125, R126, R128). -/
def State.judgeDescriptor (s : State) (c : JournalConfig) (sc : Scan) (k : Nat) (a : Answer) : State :=
  if sc.descriptorGood c k a then
    let s := s.putScan (sc.takeDescriptor k a.data)
    if k = 0 ∧ sc.outOfRange c.ring (byteAt a.data 13) = true then s.endScan else s
  else s.endScan

/-- Member k's data line is judged (R127, R128). -/
def State.judgeData (s : State) (sc : Scan) (k : Nat) (a : Answer) : State :=
  if sc.dataGood k a then s.putScan (sc.takeData k a.data) else s.endScan

/-- The commit line is judged: the group is accepted for REDO, or the scan ends (R127, R128). -/
def State.judgeCommit (s : State) (sc : Scan) (m : Nat) (a : Answer) : State :=
  if sc.commitGood m a then (s.putScan sc).withRecovery fun r => { r with phase := .redo }
  else s.endScan

/-- Judge the line at the judged position by its place in the group (R126, R127, R132). -/
def State.judgeLine (s : State) (c : JournalConfig) (sc : Scan) (a : Answer) : State :=
  let d := sc.offset sc.judged
  if a.status.isError then s.mediaError { addr := some (c.posAddr sc.judged) }
  else if sc.m.any fun m => decide (2 * m ≤ d) then s.judgeCommit sc (sc.m.getD 0) a
  else if d % 2 = 0 then s.judgeDescriptor c sc (d / 2) a
  else s.judgeData sc (d / 2) a

/-- The answer held for a position, if it has arrived. -/
def Recovery.answerOf (r : Recovery) (p : Pos) : Option Answer :=
  (r.inFlight.find? fun x => x.target == .position p).bind RecRead.answer

/-- The scan as it stands while it is judging lines. -/
def State.activeScan (s : State) : Option Scan :=
  if s.mode = .recovering ∧ s.recovery.phase = .scan then
    s.recovery.scan.filter fun sc => !sc.ended
  else none

/-- Judge lines in rising position order while the next one has its answer (R125). Each judgement takes
one answered read out of those in flight, so their number bounds the judgements. -/
def State.judgeLines : Nat → State → State
  | 0, s => s
  | k + 1, s =>
    match s.config, s.activeScan with
    | some c, some sc =>
      match s.recovery.answerOf sc.judged with
      | none => s
      | some a =>
        let s := s.withRecovery fun r =>
          { r with inFlight := r.inFlight.filter fun x => x.target != .position sc.judged }
        State.judgeLines k (s.judgeLine c sc a)
    | _, _ => s

/-- The answer of a journal read is held with its read (R119, R125). -/
def Recovery.holdAnswer (r : Recovery) (p : Pos) (a : Answer) : Recovery :=
  { r with
    inFlight := r.inFlight.map fun x =>
      if x.target = .position p then { x with answer := some a } else x }

/-- The answer of a journal read arrives after the scan's end: it is discarded (R128). -/
def State.dropAnswer (s : State) (p : Pos) : State :=
  s.withRecovery fun r =>
    Recovery.closeScan { r with inFlight := r.inFlight.filter fun x => x.target != .position p }

/-- A journal read's answer arrives (R125, R128). -/
def State.positionAnswer (s : State) (p : Pos) (a : Answer) : State :=
  if s.recovery.scan.any Scan.ended then s.dropAnswer p
  else
    State.judgeLines s.recovery.inFlight.length (s.withRecovery fun r => r.holdAnswer p a)

/-- The room check at the start of a group (R125). -/
def State.examineGroup (s : State) : State :=
  match s.config, s.activeScan with
  | some c, some sc => if sc.noRoom c.ring then s.endScan else s
  | _, _ => s

/-! ### REDO (R129) -/

/-- The scan for the next group, after the last member's grant (R129). -/
def Scan.nextGroup (sc : Scan) : Scan :=
  let g := sc.g + BitVec.ofNat 48 (footprint (sc.m.getD 0))
  { sc with g := g, s := sc.s + 1#32, m := none, sig := 0#16, judged := g, buffer := [],
            nextRedo := 0 }

/-- A redo write is granted: the next member is offered, or the engine returns to SCAN (R129). -/
def State.redoGranted (s : State) (sc : Scan) : State :=
  if sc.nextRedo + 1 < sc.m.getD 0 then
    s.withScan fun sc => { sc with nextRedo := sc.nextRedo + 1 }
  else
    State.examineGroup (s.withRecovery fun r =>
      { r with phase := .scan, replayed := r.replayed + 1, scan := some sc.nextGroup })

/-! ### The end of a recovery (R124, R130, R131) -/

/-- The anchor that closes a normal start (R130). -/
def Scan.newAnchor (sc : Scan) (size : Nat) : Anchor :=
  { epoch := sc.sel.epoch + 1#32, generation := sc.sel.generation + 1#32, tail := sc.g,
    nextSerial := sc.s + 1#32, size := size }

/-- The journal state taken from a new anchor, and the serial counter (R124, R131). -/
def State.takeAnchor (s : State) (a : Anchor) : State :=
  { s with
    journal := { head := some a.tail, epoch := some a.epoch, queue := [], current := none,
                 spaceWait := false }
    ckpt := { tail := some a.tail, generation := some a.generation,
              slot := some (a.generation.toNat % 2), flight := none }
    serial := some a.nextSerial }

/-- The end of a FRESH start (R124). -/
def State.endFresh (s : State) : State :=
  match s.config with
  | none => s
  | some c =>
    State.enterOperating ((s.takeAnchor (s.freshAnchor c.size)).appendFault .recoveryDone
      { count := some 0, addr := some (c.lineAddr 2) })

/-- The end of a normal start (R131). -/
def State.endNormal (s : State) : State :=
  match s.config, s.recovery.scan with
  | some c, some sc =>
    State.enterOperating ((s.takeAnchor (sc.newAnchor c.size)).appendFault .recoveryDone
      { count := some s.recovery.replayed, serial := some sc.s, addr := some (c.posAddr sc.g) })
  | _, _ => s

/-- A recovery fence completed OK moves the engine on (R124, R130, R131). -/
def State.fenceOk (s : State) : State :=
  match s.recovery.phase with
  | .freshFence => s.endFresh
  | .fence1 => s.withRecovery fun r => { r with phase := .newAnchor }
  | .fence2 => s.endNormal
  | _ => s

/-- A recovery fence completed: any status but OK is a MEDIA_ERROR (R132). The engine works in
RECOVERING only (R119). -/
def State.recoveryFence (s : State) (status : ModStatus) : State :=
  if s.mode = .recovering then
    let s := s.withRecovery fun r => { r with fenceOut := false }
    if status = .ok then s.fenceOk else s.mediaError {}
  else s

/-- A recovery read's answer reaches the engine, which works in RECOVERING only (R119, R121, R125). -/
def State.recoveryRead (s : State) (ref : TagRef) (a : Answer) : State :=
  if s.mode = .recovering then
    match ref with
    | .line slot => s.anchorAnswer slot a
    | .position p => s.positionAnswer p a
    | _ => s
  else s

end Sys2Proof.Machine
end

