-- ==== Sys2Proof/Machine/Arbiter.lean ====
section
/-! DEFINITION. The lower-link arbiter (R186 to R189): what each source offers, the examination with
its credit claims, and the effects of a grant. -/

namespace Sys2Proof.Machine

/-- A source's packet, with the lower tag it is to take, if it needs one. -/
structure Offer where
  body : LowerBody
  tag : Option (Nat × TagInfo)
  deriving DecidableEq, Repr

/-! ### What the sources offer -/

/-- A write needs no tag (R182). -/
def offerWrite (kind : WriteKind) (addr : Addr) (data : List Byte) (poison : Bool) : Offer :=
  { body := .write kind addr data poison, tag := none }

/-- A fence under the lowest FREE tag, recording the pass-send count (R183, R189); no packet is ready
while no tag is FREE. -/
def State.offerFence (s : State) (owner : Owner) (purpose : Purpose) (ref : TagRef) : Option Offer :=
  s.freeTag.map fun t =>
    { body := .fence t
      tag := some (t, { owner := owner, purpose := purpose, ref := ref
                        passCount := some s.marks.passSend, detached := false }) }

/-- A read under the lowest FREE tag (R183). -/
def State.offerRead (s : State) (owner : Owner) (ref : TagRef) (addr : Addr) (length : Nat) :
    Option Offer :=
  s.freeTag.map fun t =>
    { body := .read addr length t
      tag := some (t, { owner := owner, purpose := .read, ref := ref, passCount := none
                        detached := false }) }

/-- The final fence is asked for: the pass target is set and the granted mark short of it (R145). -/
def State.finalFenceWanted (s : State) : Bool :=
  s.hold.target.any fun t => !atOrBeyond s.marks.granted t

/-- PASS-DRAIN's packet: the oldest sendable entry, or in hold-up the final fence (R62, R63, R145). -/
def State.offerPass (s : State) : Option Offer :=
  match s.drainEntry with
  | some e => some (offerWrite .inPlace e.addr e.data e.poison)
  | none =>
    if s.mode = .holdup ∧ s.finalFenceWanted = true then s.offerFence .holdup .finalFence .none
    else none

/-- A body line of the current group: the descriptor of member k at line 2k, its data at 2k + 1 (R74,
R80). -/
def State.bodyLine (s : State) (epoch serial : Num32) (r : Nat) (g : Group) (line : Nat) :
    Option (List Byte) :=
  (s.member? r (g.members.getD (line / 2) 0)).map fun e =>
    if line % 2 = 0 then descriptorLine epoch serial (line / 2) g.count e.length e.addr e.data
    else dataLine e.data

/-- JOURNAL's packet: the current group's next line, its commit line, or its fence (R80, R81). -/
def State.offerJournal (s : State) : Option Offer :=
  match s.journal.current, s.config, s.journal.epoch with
  | some cur, some c, some epoch =>
    match s.group? cur.record with
    | none => none
    | some g =>
      match g.start, g.serial with
      | some start, some serial =>
        match cur.phase with
        | .body line =>
          (s.bodyLine epoch serial cur.record g line).map fun bytes =>
            offerWrite .journal (c.posAddr (start + BitVec.ofNat 48 line)) bytes false
        | .commitLine =>
          some (offerWrite .journal (c.posAddr (start + BitVec.ofNat 48 (2 * g.count)))
            (commitLine epoch serial g.stream g.count g.sig start) false)
        | .fence => s.offerFence .journal .groupFence (.serial serial)
      | _, _ => none
  | _, _, _ => none

/-- The member APPLY would send, with its group's close intake number (R86). -/
def State.applyMember (s : State) : Option (Entry × Num32) :=
  match s.apply with
  | none => none
  | some a =>
    match s.group? a.record with
    | none => none
    | some g =>
      match s.member? a.record (g.members.getD a.next 0), g.closeIntake with
      | some e, some close => some (e, close)
      | _, _ => none

/-- APPLY's packet: the next member, unless an earlier PASS entry on its line is still staged or an
earlier read of it unanswered (R59, R86, R103). -/
def State.offerApply (s : State) : Option Offer :=
  match s.applyMember with
  | none => none
  | some (e, close) =>
    if s.passOnLineBefore (lineOf e.addr) close || s.readOnLineBefore (lineOf e.addr) close then none
    else some (offerWrite .inPlace e.addr e.data false)

/-- The anchor a checkpoint writes, with its slot (R76, R91). -/
def State.ckptAnchor (s : State) (f : CkptFlight) : Option (JournalConfig × Nat × Anchor) :=
  match s.config, s.journal.epoch, s.ckpt.generation with
  | some c, some epoch, some gen =>
    some (c, (gen + 1#32).toNat % 2,
      { epoch := epoch, generation := gen + 1#32, tail := f.newTail,
        nextSerial := f.newNextSerial, size := c.size })
  | _, _, _ => none

/-- CHECKPOINT's packet: fence A, the anchor, or fence B, each once (R90 to R92). -/
def State.offerCheckpoint (s : State) : Option Offer :=
  match s.ckpt.flight with
  | none => none
  | some f =>
    match f.phase with
    | .fenceA => if f.sentA then none else s.offerFence .checkpoint .fenceA .none
    | .anchor =>
      if f.sentAnchor then none
      else (s.ckptAnchor f).map fun p =>
        offerWrite .anchor (p.1.lineAddr p.2.1) (anchorLine p.2.2) false
    | .fenceB => if f.sentB then none else s.offerFence .checkpoint .fenceB .none

/-- READ-ISSUE's packet: the earliest ready read; nothing while the lower link is not UP (R104). -/
def State.offerReadIssue (s : State) : Option Offer :=
  if s.lower.state = .up then
    match s.readyRead with
    | none => none
    | some i =>
      match s.read? i with
      | none => none
      | some rec =>
        match rec.kind with
        | .read addr length => s.offerRead .read (.record i) addr length
        | _ => none
  else none

/-- FLUSH-FENCE's packet (R109). -/
def State.offerFlushFence (s : State) : Option Offer :=
  if s.flushFenceWanted then s.offerFence .flush .flushFence .none else none

/-- A line of the journal region is being read for an anchor. -/
def Recovery.readingLine (r : Recovery) (slot : Nat) : Bool :=
  r.inFlight.any fun x => x.target == .line slot

/-- The anchor slot to read next: line 0, then line 1 (R121). -/
def Recovery.nextSlot (r : Recovery) : Option Nat :=
  [0, 1].find? fun slot => (r.anchorAt slot).isNone && !r.readingLine slot

/-- The position to read next: the group's positions in rising order, only the first until m is known
(R125). -/
def Recovery.nextPosition (r : Recovery) : Option Pos :=
  match r.scan with
  | none => none
  | some sc =>
    if sc.ended then none
    else
      ((List.range (match sc.m with
          | none => 1
          | some m => footprint m)).find? fun o =>
        decide (sc.offset sc.judged ≤ o) &&
          !(r.inFlight.any fun x => x.target == .position (sc.g + BitVec.ofNat 48 o))).map
        fun o => sc.g + BitVec.ofNat 48 o

/-- The redo write of the next member (R129). -/
def Recovery.redoWrite (r : Recovery) : Option Offer :=
  match r.scan with
  | none => none
  | some sc => (sc.buffer[sc.nextRedo]?).map fun e => offerWrite .redo e.target e.data false

/-- A recovery fence, unless the phase's fence has been granted and not completed (R120). -/
def State.offerRecoveryFence (s : State) : Option Offer :=
  if s.recovery.fenceOut then none else s.offerFence .recovery .recoveryFence .none

/-- An anchor write to the slot of its generation (R124, R130). -/
def offerAnchor (c : JournalConfig) (a : Anchor) : Offer :=
  offerWrite .anchor (c.lineAddr (a.generation.toNat % 2)) (anchorLine a) false

/-- RECOVERY's packet by the engine's phase (R120, R121, R124, R125, R129, R130). -/
def State.recoveryPacket (s : State) (c : JournalConfig) : Option Offer :=
  match s.recovery.phase with
  | .idle => none
  | .anchors =>
    match s.recovery.nextSlot with
    | none => none
    | some slot => s.offerRead .recovery (.line slot) (c.lineAddr slot) 64
  | .freshAnchor => some (offerAnchor c (s.freshAnchor c.size))
  | .freshFence => s.offerRecoveryFence
  | .scan =>
    match s.recovery.nextPosition with
    | none => none
    | some p => s.offerRead .recovery (.position p) (c.posAddr p) 64
  | .redo => s.recovery.redoWrite
  | .fence1 => s.offerRecoveryFence
  | .newAnchor => s.recovery.scan.map fun sc => offerAnchor c (sc.newAnchor c.size)
  | .fence2 => s.offerRecoveryFence

/-- RECOVERY's packet; nothing while the lower link is not UP (R120). -/
def State.offerRecovery (s : State) : Option Offer :=
  if s.lower.state = .up then
    match s.config with
    | none => none
    | some c => s.recoveryPacket c
  else none

/-- The sources the arbiter may grant in a mode (R188). -/
def Source.permitted (m : Mode) (src : Source) : Bool :=
  match m with
  | .unconfigured => false
  | .recovering => src == .recovery
  | .operating => src != .recovery
  | .holdup => src == .passDrain || src == .journal || src == .checkpoint
  | .safe => false
  | .halted => false

/-- The packet a source has ready. -/
def State.ready (s : State) : Source → Option Offer
  | .passDrain => s.offerPass
  | .journal => s.offerJournal
  | .apply => s.offerApply
  | .checkpoint => s.offerCheckpoint
  | .readIssue => s.offerReadIssue
  | .flushFence => s.offerFlushFence
  | .recovery => s.offerRecovery

/-- The packet a source that the mode permits has ready (R186, R188). -/
def State.offer (s : State) (src : Source) : Option Offer :=
  if src.permitted s.mode then s.ready src else none

/-! ### Claims (R187) -/

/-- A claim held by another source. -/
def heldByOther (claim : Option Source) (src : Source) : Bool := claim.any fun h => h != src

/-- A claim held by another source bars a packet that needs its kind (R187). -/
def Claims.bars (c : Claims) (src : Source) (a : Amount) : Bool :=
  (heldByOther c.wh src && decide (0 < a.wh)) || (heldByOther c.wd src && decide (0 < a.wd)) ||
    (heldByOther c.rd src && decide (0 < a.rd))

/-- A source takes the claim of a kind it lacks, unless the kind is claimed (R187). -/
def takeClaim (claim : Option Source) (src : Source) (lacks : Bool) : Option Source :=
  claim <|> if lacks then some src else none

/-- A source skipped for want of credit takes the claim of every kind it lacks (R187). -/
def Claims.take (c : Claims) (src : Source) (need available : Amount) : Claims :=
  { wh := takeClaim c.wh src (decide (available.wh < need.wh))
    wd := takeClaim c.wd src (decide (available.wd < need.wd))
    rd := takeClaim c.rd src (decide (available.rd < need.rd)) }

/-- Keep the claims whose holder satisfies `p`. -/
def Claims.keep (c : Claims) (p : Source → Bool) : Claims :=
  { wh := c.wh.filter p, wd := c.wd.filter p, rd := c.rd.filter p }

/-- Claims end when their holder has no packet ready or is not permitted (R187; log 20). -/
def State.settleClaims (s : State) : State :=
  { s with claims := s.claims.keep fun src => (s.offer src).isSome }

/-! ### Examination and grant (R186) -/

/-- The sources in circle order (09 9.5). -/
def Source.circle : List Source :=
  [.passDrain, .journal, .apply, .checkpoint, .readIssue, .flushFence, .recovery]

/-- A source's position in the circle. -/
def Source.position : Source → Nat
  | .passDrain => 0
  | .journal => 1
  | .apply => 2
  | .checkpoint => 3
  | .readIssue => 4
  | .flushFence => 5
  | .recovery => 6

/-- Examine sources in order: those that lack credit take claims, those that a claim bars are passed
over, and the first eligible one is found (R186, R187). -/
def State.examine (s : State) (claims : Claims) : List Source → Claims × Option (Source × Offer)
  | [] => (claims, none)
  | src :: rest =>
    match s.offer src with
    | none => s.examine claims rest
    | some o =>
      if o.body.charge.fits s.lowerAvailable then
        if claims.bars src o.body.charge then s.examine claims rest else (claims, some (src, o))
      else s.examine (claims.take src o.body.charge s.lowerAvailable) rest

/-- The arbiter may grant: the lower link is UP, the re-send complete, and the retry buffer has room
(R186). -/
def State.mayGrant (s : State) : Bool :=
  s.lower.state == .up && !s.resendPending && decide (s.lowerRetry.length < Config.lowerRetryPackets)

/-- A granted fence moves the granted mark (R189). -/
def State.markFence (s : State) : LowerBody → State
  | .fence _ => s.markGranted
  | _ => s

/-- The granted packet takes its tag (R183). -/
def State.takeTag (s : State) : Option (Nat × TagInfo) → State
  | none => s
  | some (t, info) => s.setTag t (.outstanding info)

/-- PASS-DRAIN is granted: the entry sent is freed and counted (R51, R63, R108). -/
def State.passGranted (s : State) : LowerBody → State
  | .write _ _ _ _ => (s.freeEntryOnce s.sendable).countPassSend
  | _ => s

/-- JOURNAL is granted: the next line, the commit line, the fence, or COMMITTING follows (R80, R81). -/
def State.journalGranted (s : State) : State :=
  match s.journal.current with
  | none => s
  | some cur =>
    match cur.phase with
    | .body line =>
      let m := ((s.group? cur.record).map Group.count).getD 0
      s.withJournal fun j =>
        { j with current := some { cur with
            phase := if line + 1 < 2 * m then .body (line + 1) else .commitLine } }
    | .commitLine => s.withJournal fun j => { j with current := some { cur with phase := .fence } }
    | .fence =>
      (s.modifyGroup cur.record fun g => { g with state := .committing }).withJournal
        fun j => { j with current := none }

/-- APPLY is granted: the entry is APPLIED, and the group with its last member (R86, R87). -/
def State.applyGranted (s : State) : State :=
  match s.apply with
  | none => s
  | some a =>
    match s.group? a.record with
    | none => s
    | some g =>
      let s := s.mapEntries (Entry.isMember a.record (g.members.getD a.next 0)) EntryKind.toApplied
      if a.next + 1 < g.count then { s with apply := some { a with next := a.next + 1 } }
      else
        { s.modifyGroup a.record fun g => { g with state := .applied } with apply := none }

/-- CHECKPOINT is granted: the phase's packet is sent, and the anchor's grant begins FENCE B (R90 to
R92). -/
def State.ckptGranted (s : State) : State :=
  s.withFlight fun f =>
    match f.phase with
    | .fenceA => { f with sentA := true }
    | .anchor => { f with sentAnchor := true, phase := .fenceB }
    | .fenceB => { f with sentB := true }

/-- READ-ISSUE is granted: the record is ISSUED with its tag (R104). -/
def State.readGranted (s : State) : Option (Nat × TagInfo) → State
  | some (t, { ref := .record i, .. }) => s.modifyRead i fun rec => { rec with state := .issued t }
  | _ => s

/-- A recovery read is granted: it is in flight (R119). -/
def State.recoveryReadGranted (s : State) : Option (Nat × TagInfo) → State
  | some (t, { ref := .line slot, .. }) =>
    s.withRecovery fun r =>
      { r with inFlight := r.inFlight ++ [{ target := .line slot, tag := t, answer := none }] }
  | some (t, { ref := .position p, .. }) =>
    s.withRecovery fun r =>
      { r with inFlight := r.inFlight ++ [{ target := .position p, tag := t, answer := none }] }
  | _ => s

/-- RECOVERY's fence is granted (R120). -/
def State.recoveryFenceGranted (s : State) : State :=
  s.withRecovery fun r => { r with fenceOut := true }

/-- RECOVERY is granted (R120, R124, R129, R130). -/
def State.recoveryGranted (s : State) (tag : Option (Nat × TagInfo)) : State :=
  match s.recovery.phase with
  | .idle => s
  | .anchors => s.recoveryReadGranted tag
  | .freshAnchor => s.withRecovery fun r => { r with phase := .freshFence }
  | .freshFence => s.recoveryFenceGranted
  | .scan => s.recoveryReadGranted tag
  | .redo =>
    match s.recovery.scan with
    | none => s
    | some sc => s.redoGranted sc
  | .fence1 => s.recoveryFenceGranted
  | .newAnchor => s.withRecovery fun r => { r with phase := .fence2 }
  | .fence2 => s.recoveryFenceGranted

/-- What a grant does at the granted source. -/
def State.granted (s : State) (o : Offer) : Source → State
  | .passDrain => s.passGranted o.body
  | .journal => s.journalGranted
  | .apply => s.applyGranted
  | .checkpoint => s.ckptGranted
  | .readIssue => s.readGranted o.tag
  | .flushFence => s
  | .recovery => s.recoveryGranted o.tag

/-- Grant a source its packet: the round-robin position moves past it, its claims end, its tag is
allocated, a fence moves the granted mark, and the packet is sent (R186, R187, R189). -/
def State.grant (s : State) (src : Source) (o : Offer) : State :=
  let s := { s with
    robin := (src.position + 1) % 7
    claims := s.claims.keep fun h => h != src }
  ((((s.takeTag o.tag).markFence o.body).sendLower o.body).granted o src)

/-- The examination of an arbiter event: claims are taken, and the first eligible source is granted
(R186, R187; log 19). -/
def State.arbitrate (s : State) : State :=
  if s.mayGrant then
    let found := s.examine s.claims (Source.circle.rotateLeft s.robin)
    let s := { s with claims := found.1 }
    match found.2 with
    | none => s
    | some (src, o) => s.grant src o
  else s

end Sys2Proof.Machine
end

