-- ==== Sys2Proof/Machine/Event.lean ====
section
/-! DEFINITION. What begins and ends every event: training of a DOWN port, PFW_N found asserted, and
the standing conditions examined at the end (R137, R155, R107 to R112, R144, R187). -/

namespace Sys2Proof.Machine

/-- A port that is DOWN and not held DOWN starts training: the first event after a reset (R155, R174;
log 4). -/
def State.trainIfDown (s : State) (l : Link) : State :=
  if (s.port l).state = .down ∧ (s.port l).heldDown = false then s.startTraining l else s

/-- Both ports, the upper first. -/
def State.trainPorts (s : State) : State := (s.trainIfDown .upper).trainIfDown .lower

/-- PFW_N found asserted causes the transition of R137. -/
def State.samplePfw (s : State) : State := if s.pfwAsserted then s.pfwTransition else s

/-- An event begins: nothing sent yet, DOWN ports train, PFW_N is sampled (log 1, log 5). -/
def State.beginEvent (s : State) : State := State.samplePfw (State.trainPorts { s with sent := [] })

/-- An event ends: the waiting flushes, the hold-up work and the credit claims are examined (log 20). -/
def State.endEvent (s : State) : State := s.settleFlushes.settleHoldup.settleClaims

/-- A whole event with the effect `f`. -/
def State.event (s : State) (f : State → State) : Host.Outcome State Fault Refusal :=
  .next (f s.beginEvent).endEvent

end Sys2Proof.Machine
end

