-- ==== Sys2Proof/Machine/Classifier.lean ====
section
/-! DEFINITION. The classifier's events: TAKE_REQUEST, LINK_DOWN_MARKER_AT_HEAD, HOLDUP_INTAKE
(chapter 1). -/

namespace Sys2Proof.Machine

/-- The head request is taken: it leaves the queue, and the intake counter moves on (R3). -/
def State.takeHead (s : State) (rest : List QueueItem) : State :=
  { s with queue := rest, intake := s.intake + 1#32 }

/-- A MALFORMED request is dropped and recorded, its credits returned (R9). -/
def State.dropMalformed (s : State) (r : Request) : State :=
  (s.appendFault .malformed
    { addr := some r.addr, stream := if r.group then some r.stream else none }).returnCredits r.charge

/-- A zero-length write: its header credit returns; with both flags it is a close without data (R10). -/
def State.zeroWrite (s : State) (n : Num32) (r : Request) : State :=
  let s := s.returnCredits r.charge
  if r.group ∧ r.close then s.close n r else s

/-- A write of length 1 to 64 without the group flag: staged as a PASS entry, or denied (R11, R12). -/
def State.plainWrite (s : State) (n : Num32) (r : Request) : State :=
  if (s.verdict r.addr).allowsPass then
    s.stage { intake := n, addr := r.addr, length := r.length, data := r.data,
              kind := .pass .waiting, poison := r.poison }
  else (s.appendFault .deniedWrite { addr := some r.addr }).returnCredits r.charge

/-- A well-formed write is routed (R10, R11, R13). -/
def State.routeWrite (s : State) (n : Num32) (r : Request) : State :=
  if r.length = 0 then s.zeroWrite n r
  else if r.group then s.groupWrite n r (s.verdict r.addr).isJournal
  else s.plainWrite n r

/-- A taken request in OPERATING, by its kind and form (R9 to R14). -/
def State.classify (s : State) (n : Num32) (r : Request) (orphan : Bool) : State :=
  match r.kind with
  | .read => s.handRead n r orphan
  | .write => if r.malformed then s.dropMalformed r else s.routeWrite n r
  | .reserved _ => s.dropMalformed r

/-- A taken request in HALTED: a write is dropped with its credits returned, a read or flush is handed
on and completed FAILED (R19, R116). -/
def State.haltedTake (s : State) (n : Num32) (r : Request) (orphan : Bool) : State :=
  match r.kind with
  | .read => s.handRead n r orphan
  | .write => s.returnCredits r.charge
  | .reserved _ => s.returnCredits r.charge

/-- A read or flush finds a free read record; its credit keeps one free (R1, R99; log 21). -/
def State.readRoom (s : State) (r : Request) : Bool :=
  r.kind != .read || (lowestFree s.reads).isSome

/-- A hold keeps the request at the head (R8). -/
def State.held (s : State) (r : Request) : Bool := s.recordHold r || s.horizonHold

/-- The classifier takes the head request, as the mode has it (R8, R19). -/
def State.takeRequest (s : State) : State :=
  match s.queue with
  | .request r :: rest =>
    if s.readRoom r then
      match s.mode with
      | .operating =>
        if s.held r then s
        else (s.takeHead rest).classify s.intake r (rest.contains .linkDownMarker)
      | .halted => (s.takeHead rest).haltedTake s.intake r (rest.contains .linkDownMarker)
      | _ => s
    else s
  | _ => s

/-- A LINK_DOWN marker at the head: in OPERATING every OPEN group is discarded; in HOLDUP and HALTED it
is removed with no effect (R17, R142, R19). -/
def State.takeMarker (s : State) : State :=
  match s.queue with
  | .linkDownMarker :: rest =>
    match s.mode with
    | .operating => State.discardOpen { s with queue := rest } s.mode .linkDown
    | .holdup => { s with queue := rest }
    | .halted => { s with queue := rest }
    | _ => s
  | _ => s

/-- In HOLDUP a request that reaches the head is treated as the purge treats one (R19). -/
def State.intakeInHoldup (s : State) : State :=
  match s.queue with
  | .request r :: rest =>
    if s.mode = .holdup then
      State.purgeItem { s with queue := rest } (rest.contains .linkDownMarker) (.request r)
    else s
  | _ => s

/-- TAKE_REQUEST (R8). -/
def execTakeRequest (s : State) : Host.Outcome State Fault Refusal := s.event State.takeRequest

/-- LINK_DOWN_MARKER_AT_HEAD (R17). -/
def execLinkDownMarkerAtHead (s : State) : Host.Outcome State Fault Refusal :=
  s.event State.takeMarker

/-- HOLDUP_INTAKE (R19). -/
def execHoldupIntake (s : State) : Host.Outcome State Fault Refusal := s.event State.intakeInHoldup

end Sys2Proof.Machine
end

