-- ==== Sys2Proof/Machine/Operands.lean ====
section
/-! DEFINITION. The operand forms of the packet commands: how the bytes of a received packet are
read, and which command a packet or a management transaction is (R192, R193, R208 to R210 and the
tables of chapter 11). -/

namespace Sys2Proof.Machine

/-! ### Transaction packets -/

/-- A request header's kind byte (chapter 11.2). -/
def reqKindOf (code : Nat) : ReqKind :=
  if code = 1 then .read else if code = 2 then .write else .reserved (toByte code)

/-- Whether the packet's kind byte names a completion (chapter 11.2; log 9). -/
def isCompletion (bytes : List Byte) : Bool := byteAt bytes 3 == 0x08

/-- The length a request header carries: bits 6:0 (chapter 11.2). -/
def headerLength (bytes : List Byte) : Nat := byteAt bytes 10 % 128

/-- The data bytes a packet carries by its header (R209, completion header), absent when the header
defines no size: a completion's length is 0 to 64. A FENCE is a request of its own only on the
lower link. -/
def dataBytes (port : Link) (bytes : List Byte) : Option Nat :=
  if isCompletion bytes then
    if byteAt bytes 6 ≤ 64 then some (byteAt bytes 6) else none
  else if byteAt bytes 3 = 1 then some 0
  else if byteAt bytes 3 = 3 ∧ port = .lower then some 0
  else some (min (headerLength bytes) 64)

/-- Whether a transaction packet is undamaged: class byte 00h, the size its header defines, and a
good CRC-32 (R158, R208). -/
def frameGood (port : Link) (bytes : List Byte) : Bool :=
  byteAt bytes 0 == 0 && decide (19 ≤ bytes.length) &&
    dataBytes port bytes == some (bytes.length - 19) && crc32Good bytes

/-- The sequence number: bits 11:0 of bytes 1 and 2 (chapter 11.2). -/
def frameSeq (bytes : List Byte) : Seq := BitVec.ofNat 12 (fieldAt bytes 1 2)

/-- The data of an undamaged packet: what stands between the header and the CRC-32. -/
def frameData (bytes : List Byte) : List Byte := slice bytes 15 (bytes.length - 19)

/-- The request an undamaged packet carries (chapter 11.2). -/
def parseRequest (bytes : List Byte) : Request :=
  { kind := reqKindOf (byteAt bytes 3)
    tag := BitVec.ofNat 6 (byteAt bytes 4)
    addr := BitVec.ofNat 40 (fieldAt bytes 5 5)
    length := headerLength bytes
    group := bitAt (byteAt bytes 11) 0
    close := bitAt (byteAt bytes 11) 1
    poison := bitAt (byteAt bytes 11) 2
    stream := byteAt bytes 11 / 16 % 8
    count := byteAt bytes 12
    sig := BitVec.ofNat 16 (fieldAt bytes 13 2)
    data := frameData bytes }

/-- A module status code (chapter 11.2, R210). -/
def modStatusOf (code : Nat) : ModStatus :=
  if code = 0 then .ok else if code = 3 then .poisoned else if code = 7 then .error else .other

/-- The lower tag of a completion: bits 5:0 of byte 4 (chapter 11.2). -/
def completionTag (bytes : List Byte) : Nat := byteAt bytes 4 % 64

/-- The module's answer an undamaged completion carries. -/
def parseAnswer (bytes : List Byte) : Answer :=
  { status := modStatusOf (byteAt bytes 5), data := frameData bytes }

/-! ### Link units -/

/-- How a received link unit reads: of the wrong size, so a damaged transaction packet (R208); to be
discarded for its check or a field (R154, R210); or a good unit. -/
inductive UnitForm where
  | damaged
  | discarded
  | good (u : LinkUnit)
  deriving DecidableEq, Repr

/-- The three limits at offset `off`: 8 bits, 12 bits, 8 bits (chapter 11.2). -/
def parseLimits (bytes : List Byte) (off : Nat) : Limits :=
  { wh := BitVec.ofNat 8 (byteAt bytes off), wd := BitVec.ofNat 12 (fieldAt bytes (off + 1) 2),
    rd := BitVec.ofNat 8 (byteAt bytes (off + 3)) }

/-- The sequence an ACK or NAK carries: bits 11:0 of bytes 1 and 2. -/
def unitSeq (bytes : List Byte) : Seq := BitVec.ofNat 12 (fieldAt bytes 1 2)

/-- A unit of class `cls` and `size` bytes, its fields read by `u` (R154, R208). -/
def parseUnit (cls size : Nat) (bytes : List Byte) (u : Option LinkUnit) : UnitForm :=
  if byteAt bytes 0 = cls ∧ bytes.length = size then
    if crc16Good bytes then (u.map .good).getD .discarded else .discarded
  else .damaged

/-- A training kind byte (R210). -/
def trainKindOf (code : Nat) : Option TrainKind :=
  if code = 0 then some .train else if code = 1 then some .retrain else none

/-- A reply flag byte (R210). -/
def replyOf (code : Nat) : Option Bool :=
  if code = 0 then some false else if code = 1 then some true else none

/-- An INIT's fields, absent for a training kind or reply flag other than 00h or 01h (R210). -/
def initFields (bytes : List Byte) : Option LinkUnit :=
  match trainKindOf (byteAt bytes 1), replyOf (byteAt bytes 2) with
  | some kind, some reply => some (.init kind reply (parseLimits bytes 3))
  | _, _ => none

/-- A received INIT. -/
def parseInit (bytes : List Byte) : UnitForm := parseUnit 0x81 9 bytes (initFields bytes)

/-- A received ACK. -/
def parseAck (bytes : List Byte) : UnitForm := parseUnit 0x82 5 bytes (some (.ack (unitSeq bytes)))

/-- A received NAK. -/
def parseNak (bytes : List Byte) : UnitForm := parseUnit 0x83 5 bytes (some (.nak (unitSeq bytes)))

/-- A received CREDIT. -/
def parseCredit (bytes : List Byte) : UnitForm :=
  parseUnit 0x84 7 bytes (some (.credit (parseLimits bytes 1)))

/-- The command that a packet arriving at a port is, by its class byte (R208): a link unit's, else a
transaction packet, damaged when the class byte is no transaction packet's. -/
def packetCommand (port : Link) (bytes : List Byte) : Instr :=
  match byteAt bytes 0 with
  | 0x81 => .init port bytes
  | 0x82 => .ack port bytes
  | 0x83 => .nak port bytes
  | 0x84 => .credit port bytes
  | _ => .transactionPacket port bytes

/-! ### Management transactions -/

/-- The port acknowledges a transaction's first byte when its bits 7:1 carry the port's own address, in
either direction (R192). -/
def State.acknowledges (s : State) (first : Byte) : Bool := first.toNat / 2 == s.i2cAddress.toNat

/-- The command that a write transaction is, by the bytes after the address: the first is the command
code; with none there is no command (R192, R193, chapter 11.4). -/
def writeTransaction : List Byte → Option Instr
  | [] => none
  | code :: body => some (match code.toNat with
    | 0x01 => .identify body
    | 0x02 => .readStatus body
    | 0x10 => .setJournal body
    | 0x11 => .setParameters body
    | 0x20 => .writePendingEntry body
    | 0x21 => .readPendingEntry body
    | 0x22 => .commitEntry body
    | 0x23 => .readEntry body
    | 0x30 => .start body
    | 0x40 => .readFault body
    | _ => .unknownCommandCode code body)

end Sys2Proof.Machine
end

