-- ==== Sys2Proof/Machine/LinkReceive.lean ====
section
/-! DEFINITION. The packets a port receives: TRANSACTION_PACKET, INIT, ACK, NAK, CREDIT (chapter 8;
R176, R184). -/

namespace Sys2Proof.Machine

/-! ### The ULP's consumer (R165, R176) -/

/-- A credit overrun: its record, then the upper link DOWN (R176). -/
def State.creditOverrun (s : State) (r : Request) : State :=
  (s.appendFault .creditOverrun { addr := some r.addr, link := some .upper }).upperDown

/-- An accepted request is charged and queued, or is a credit overrun (R1, R176). -/
def State.receiveRequest (s : State) (r : Request) : State :=
  if r.charge.fits (unconsumed s.credits.limit s.credits.consumed) then
    { s with
      credits := { s.credits with consumed := s.credits.consumed.raise r.charge }
      queue := s.queue ++ [.request r] }
  else s.creditOverrun r

/-! ### The LLP's consumer (R166, R184) -/

/-- The data length a tag's read asked for: a requester read's own, 64 for a recovery read. -/
def State.readLength (s : State) (info : TagInfo) : Nat :=
  match info.ref with
  | .record i =>
    match (s.read? i).map ReadRecord.kind with
    | some (.read _ length) => length
    | _ => 0
  | _ => 64

/-- An answer whose form does not match the read is handed on as ERROR (R184). -/
def checkForm (a : Answer) (length : Nat) : Answer :=
  if a.status.isError || a.data.length == length then a else { status := .error, data := [] }

/-- An OK fence completion gives its recorded count to the flush unit, unless the mode is SAFE or HALTED
(R184). -/
def State.countFence (s : State) (info : TagInfo) (status : ModStatus) : State :=
  if status = .ok ∧ s.mode ≠ .safe ∧ s.mode ≠ .halted then
    s.raiseDurable (info.passCount.getD s.marks.durable)
  else s

/-- A read's answer goes to its owner (R105, R121, R125). -/
def State.handRecordRead (s : State) (info : TagInfo) (a : Answer) : State :=
  match info.ref with
  | .record i => s.answerRead i a
  | _ => s.recoveryRead info.ref a

/-- A group fence's completion goes to the journal engine with its serial (R83, R84). -/
def State.handGroupFence (s : State) (info : TagInfo) (status : ModStatus) : State :=
  match info.ref with
  | .serial n => s.groupFence n status
  | _ => s

/-- A flush fence's or final fence's completion: any status but OK is a MEDIA_ERROR (R110, R145). -/
def State.handPlainFence (s : State) (status : ModStatus) : State :=
  if status = .ok then s else s.mediaError {}

/-- An answer handed to its tag's owner (R184). -/
def State.handOn (s : State) (info : TagInfo) (a : Answer) : State :=
  match info.purpose with
  | .read => s.handRecordRead info (checkForm a (s.readLength info))
  | .groupFence => (s.countFence info a.status).handGroupFence info a.status
  | .fenceA => (s.countFence info a.status).fenceADone a.status
  | .fenceB => (s.countFence info a.status).fenceBDone a.status
  | .flushFence => (s.countFence info a.status).handPlainFence a.status
  | .finalFence => (s.countFence info a.status).handPlainFence a.status
  | .recoveryFence => (s.countFence info a.status).recoveryFence a.status

/-- A completion is matched to its lower tag (R166): an OUTSTANDING tag becomes SPENT, its packet leaves
the buffer if acknowledged (R169, R183), and the answer is handed on unless it is detached or the part
is SAFE (R149). -/
def State.receiveCompletion (s : State) (t : Nat) (a : Answer) : State :=
  match s.tag t with
  | .outstanding info =>
    let s := (s.setTag t (.spent info)).pruneLower
    if info.detached = true ∨ s.mode = .safe ∨ s.mode = .halted then s else s.handOn info a
  | _ => s

/-! ### The packet's judgement (R158 to R160) -/

/-- An accepted packet at the port: expected and last accepted sequences, count, timer, NAK; the ACK of
the eighth is sent at once (R158, R159; log 35). -/
def State.acceptPacket (s : State) (l : Link) (seq : Seq) : State :=
  let p := s.port l
  let s := s.setPort l { p with
    expRx := p.expRx + 1#12
    lastAcc := seq
    unacked := p.unacked + 1
    nakOut := false
    ackTimer := p.ackTimer || p.unacked == 0 }
  if Config.ackEvery ≤ (s.port l).unacked then s.sendAck l else s

/-- An accepted packet is handed to its port's consumer, or discarded when its kind is not one the port
receives (R153). -/
def State.consume (s : State) (l : Link) (bytes : List Byte) : State :=
  match l with
  | .upper => if isCompletion bytes then s else s.receiveRequest (parseRequest bytes)
  | .lower =>
    if isCompletion bytes then s.receiveCompletion (completionTag bytes) (parseAnswer bytes) else s

/-- The port's judgement of a transaction packet (R158, R160). -/
def State.judgePacket (s : State) (l : Link) (bytes : List Byte) : State :=
  if (s.port l).state = .up then
    if frameGood l bytes then
      let d := (frameSeq bytes - (s.port l).expRx).toNat
      if d = 0 then (s.acceptPacket l (frameSeq bytes)).consume l bytes
      else if d < 2048 then s.sendNak l
      else s.sendAck l
    else s.sendNak l
  else s

/-- A received link unit: of the wrong size, a damaged transaction packet; discarded; or good and
handled. A port that is DOWN discards it (R154, R155, R208, R210). -/
def State.receiveUnit (s : State) (l : Link) (form : UnitForm) (f : LinkUnit → State → State) :
    State :=
  match form with
  | .damaged => s.damaged l
  | .discarded => s
  | .good u => f u s

/-- A good INIT (R156, R157). -/
def onInit (l : Link) (u : LinkUnit) (s : State) : State :=
  match u with
  | .init kind reply limits => s.handleInit l kind reply limits
  | _ => s

/-- A good ACK (R162). -/
def onAck (l : Link) (u : LinkUnit) (s : State) : State :=
  match u with
  | .ack n => s.handleAck l n
  | _ => s

/-- A good NAK (R162). -/
def onNak (l : Link) (u : LinkUnit) (s : State) : State :=
  match u with
  | .nak n => s.handleNak l n
  | _ => s

/-- A good CREDIT unit (R181). -/
def onCredit (l : Link) (u : LinkUnit) (s : State) : State :=
  match u with
  | .credit limits => s.handleCredit l limits
  | _ => s

/-- TRANSACTION_PACKET (R158). -/
def execTransactionPacket (l : Link) (bytes : List Byte) (s : State) :
    Host.Outcome State Fault Refusal :=
  s.event fun s => s.judgePacket l bytes

/-- INIT (R156, R157). -/
def execInit (l : Link) (bytes : List Byte) (s : State) : Host.Outcome State Fault Refusal :=
  s.event fun s => s.receiveUnit l (parseInit bytes) (onInit l)

/-- ACK (R162). -/
def execAck (l : Link) (bytes : List Byte) (s : State) : Host.Outcome State Fault Refusal :=
  s.event fun s => s.receiveUnit l (parseAck bytes) (onAck l)

/-- NAK (R162). -/
def execNak (l : Link) (bytes : List Byte) (s : State) : Host.Outcome State Fault Refusal :=
  s.event fun s => s.receiveUnit l (parseNak bytes) (onNak l)

/-- CREDIT (R181). -/
def execCredit (l : Link) (bytes : List Byte) (s : State) : Host.Outcome State Fault Refusal :=
  s.event fun s => s.receiveUnit l (parseCredit bytes) (onCredit l)

end Sys2Proof.Machine
end

