-- ==== Sys2Proof/Machine/LowerWork.lean ====
section
/-! DEFINITION. The lower side's own events: ARBITER_GRANT, RESERVATION, APPLY_TAKE_GROUP,
CHECKPOINT_START (R78, R85, R89, R186). -/

namespace Sys2Proof.Machine

/-- ARBITER_GRANT (R186). -/
def execArbiterGrant (s : State) : Host.Outcome State Fault Refusal := s.event State.arbitrate

/-- RESERVATION (R78, R79). -/
def execReservation (s : State) : Host.Outcome State Fault Refusal := s.event State.reserve

/-- APPLY_TAKE_GROUP (R85). -/
def execApplyTakeGroup (s : State) : Host.Outcome State Fault Refusal := s.event State.takeApply

/-- CHECKPOINT_START (R89). -/
def execCheckpointStart (s : State) : Host.Outcome State Fault Refusal :=
  s.event State.startCheckpoint

end Sys2Proof.Machine
end

