-- ==== Sys2Proof/Machine/Management.lean ====
section
/-! DEFINITION. The management port's commands (chapter 10). Each is taken whole in the event in which
its transaction ends, and its response becomes the held response (R192, R194; log 25). -/

namespace Sys2Proof.Machine

/-! ### Form (R193) -/

/-- The parameter bytes of a command, after its declared length. -/
def paramsOf (body : List Byte) : List Byte := body.drop 1

/-- A command passes the form check: it has a declared length, equal to the received count, which is the
expected count (R193). -/
def formGood (expected : Nat) (body : List Byte) : Bool :=
  !body.isEmpty && byteAt body 0 == (paramsOf body).length && (paramsOf body).length == expected

/-- The port refuses a command: only the held response changes (R194). -/
def State.refuse (s : State) (status : RespStatus) : State := s.respond status []

/-- A command judged for form first, then by its own rule `f` on its parameters (R193). -/
def State.command (s : State) (expected : Nat) (body : List Byte) (f : List Byte → State → State) :
    State :=
  if formGood expected body then f (paramsOf body) s else s.refuse .badArgument

/-! ### Reports (R196, R197) -/

/-- The data of IDENTIFY (R196; chapter 11.4). -/
def identifyBytes : List Byte :=
  leBytes 2 Config.partCode ++ [toByte Config.revision, toByte Config.streams,
    toByte Config.groupRecords, toByte Config.stagingEntries] ++ leBytes 2 Config.stagingUnits ++
    [toByte Config.readRecords, toByte Config.lowerTags, toByte Config.windowEntries,
      toByte Config.faultRecords]

/-- IDENTIFY's answer (R196). -/
def doIdentify (_params : List Byte) (s : State) : State := s.respond .done identifyBytes

/-- The number of staging entries of a kind and state. -/
def State.countEntries (s : State) (p : Entry → Bool) : Nat := s.staging.entries.countP p

/-- A MEMBER entry in a state. -/
def Entry.memberIn (st : MemberState) (e : Entry) : Bool :=
  match e.kind with
  | .pass _ => false
  | .member _ _ st' => st' == st

/-- The eight bytes of a group record (chapter 11.4); bytes 1 to 7 of a free record are 0 (log 44). -/
def groupBytes : Option Group → List Byte
  | none => zeros 8
  | some g =>
    [toByte g.state.code, toByte g.stream, toByte g.count, toByte (causeCode g.fault)] ++
      leBytes 4 ((g.serial.map BitVec.toNat).getD 0)

/-- The three bytes of a stream (chapter 11.4). Bits 6:4 of its first byte, and the record index of an IDLE
stream, are 0 (log 44). -/
def streamBytes (st : StreamState) : List Byte :=
  [toByte (match st.group with
    | none => 0
    | some r => 128 + r), toByte st.discards, toByte (causeCode st.lastCause)]

/-- An optional number, zero while unset (chapter 11.4). -/
def orZero {w : Nat} (v : Option (BitVec w)) : Nat := (v.map BitVec.toNat).getD 0

/-- Mode, links and staging: bytes 0 to 8 of READ STATUS. Bits 7:5 of byte 1 are 0 (log 44). -/
def State.statusHead (s : State) : List Byte :=
  [toByte s.mode.code,
    toByte (s.upper.state.code + s.lower.state.code * 4 + bitOf s.lower.heldDown 16),
    toByte s.staging.entries.length] ++ leBytes 2 (totalUnits s.staging.entries) ++
    [toByte (s.countEntries Entry.isWaiting),
      toByte (s.countEntries fun e => e.kind == .pass .abandoned),
      toByte (s.countEntries (Entry.memberIn .held)),
      toByte (s.countEntries (Entry.memberIn .applied))]

/-- The unset and space-wait bits: byte 182 of READ STATUS. Bits 7:5 are 0 (log 44). -/
def State.statusFlags (s : State) : Byte :=
  toByte (bitOf s.journal.head.isNone 1 + bitOf s.ckpt.tail.isNone 2 +
    bitOf s.ckpt.generation.isNone 4 + bitOf s.serial.isNone 8 + bitOf s.journal.spaceWait 16)

/-- The journal: bytes 161 to 182 of READ STATUS. -/
def State.statusJournal (s : State) : List Byte :=
  leBytes 6 (orZero s.journal.head) ++ leBytes 6 (orZero s.ckpt.tail) ++
    leBytes 4 (orZero s.ckpt.generation) ++ [toByte (s.ckpt.slot.getD 0)] ++
    leBytes 4 (orZero s.serial) ++ [s.statusFlags]

/-- Reads, tags, hold-up and the fault list: bytes 183 to 188 of READ STATUS. -/
def State.statusTail (s : State) : List Byte :=
  [toByte s.liveReads.length, toByte (s.tags.countP fun t => t != .free), toByte s.hold.abandoned,
    toByte s.faults.length] ++ leBytes 2 ((s.faults.head?.map fun r => r.seq.toNat).getD 0)

/-- The 189 bytes of READ STATUS (R197; chapter 11.4). -/
def State.statusBytes (s : State) : List Byte :=
  s.statusHead ++ (s.groups.map groupBytes).flatten ++ (s.streams.map streamBytes).flatten ++
    s.statusJournal ++ s.statusTail

/-- READ STATUS's answer (R197). -/
def doReadStatus (_params : List Byte) (s : State) : State := s.respond .done s.statusBytes

/-! ### Configuration (R198, R199) -/

/-- The configuration SET JOURNAL carries (chapter 11.4). -/
def journalParams (params : List Byte) : JournalConfig :=
  { base := BitVec.ofNat 40 (fieldAt params 0 5), size := fieldAt params 5 4,
    moduleSize := fieldAt params 9 6 }

/-- The journal sizes: the powers of two from 64 KiB to 16 MiB (R71). -/
def journalSizes : List Nat := (List.range 9).map fun k => Config.minJournal * 2 ^ k

/-- The values of a journal configuration are in range (R198). -/
def JournalConfig.valuesGood (c : JournalConfig) : Bool :=
  journalSizes.contains c.size && c.base.toNat % c.size == 0 && decide (c.moduleSize ≠ 0) &&
    c.moduleSize % Config.pageBytes == 0 && decide (c.moduleSize ≤ Config.maxModule) &&
    decide (c.base.toNat + c.size ≤ c.moduleSize)

/-- A valid window shares a line with a range of bytes (R198, R202). -/
def Window.meets (w : Window) (base bytes : Nat) : Bool :=
  w.valid && rangesMeet w.base.toNat w.bytes base bytes

/-- SET JOURNAL's judgement (R198). -/
def doSetJournal (params : List Byte) (s : State) : State :=
  let c := journalParams params
  if s.mode ≠ .unconfigured then s.refuse .badState
  else if c.valuesGood = false then s.refuse .badArgument
  else if s.windows.any fun w => w.meets c.base.toNat c.size then s.refuse .conflict
  else State.respond { s with config := some c } .done []

/-- The parameter set SET PARAMETERS carries, absent when a value is out of range (R199). -/
def paramsGood (params : List Byte) : Option Params :=
  let batch := byteAt params 0
  let hold := fieldAt params 1 2
  let budget := byteAt params 3
  if 1 ≤ batch ∧ batch ≤ 8 ∧ 1 ≤ hold ∧ hold ≤ 1000 ∧ 1 ≤ budget then
    (passDenyOf (byteAt params 4)).map fun policy =>
      { batch := batch, holdTime := hold, budget := budget, default := policy }
  else none

/-- SET PARAMETERS' judgement (R199). -/
def doSetParameters (params : List Byte) (s : State) : State :=
  if s.mode ≠ .unconfigured then s.refuse .badState
  else
    match paramsGood params with
    | none => s.refuse .badArgument
    | some p => State.respond { s with params := p } .done []

/-! ### The pending entry and the window table (R200 to R203) -/

/-- The pending entry WRITE PENDING ENTRY makes from an index byte and the bytes after it (R200). -/
def pendingOf (index : Byte) (bytes : List Byte) : PendingEntry :=
  { index := index, bytes := bytes.take 10, check := sumCheck (bytes.take 10)
    short := decide (bytes.length < 10), long := decide (10 < bytes.length), accepted := false }

/-- WRITE PENDING ENTRY: only the received bytes are judged (R200). -/
def State.writePending (s : State) (body : List Byte) : State :=
  match paramsOf body with
  | [] => s.refuse .badArgument
  | index :: bytes =>
    State.respond { s with pendingEntry := some (pendingOf index bytes) } .done []

/-- READ PENDING ENTRY's answer (R201). -/
def doReadPending (_params : List Byte) (s : State) : State :=
  match s.pendingEntry with
  | none => s.refuse .empty
  | some e => s.respond .done ([e.index, e.check, flagsByte e] ++ e.bytes)

/-- The window of a table index. -/
def State.windowOf (s : State) (i : Nat) : Window := s.windows.getD i .empty

/-- READ ENTRY's answer (R201). -/
def doReadEntry (params : List Byte) (s : State) : State :=
  if 15 < byteAt params 0 then s.refuse .badArgument
  else s.respond .done (windowBytes (s.windowOf (byteAt params 0)))

/-- The module size a window's last byte is tested against: 1 TiB while it is unset (R202). -/
def State.moduleLimit (s : State) : Nat :=
  match s.config with
  | none => Config.maxModule
  | some c => c.moduleSize

/-- The fields of a valid entry, absent when one is invalid (R202). -/
def State.entryFields (s : State) (bytes : List Byte) : Option Window :=
  match entryPolicy bytes, entryUngrouped bytes with
  | some policy, some ungrouped =>
    let w : Window :=
      { valid := true, base := entryBase bytes, pages := entryPages bytes, policy := policy,
        ungrouped := ungrouped }
    if w.base.toNat % Config.pageBytes = 0 ∧ 1 ≤ w.pages ∧ w.pages ≤ Config.maxPages ∧
        w.base.toNat + w.bytes ≤ s.moduleLimit then
      some w
    else none
  | _, _ => none

/-- The window a pending entry would put in force: the removed window when its valid field is clear
(R203), absent when its fields are invalid (R202). -/
def State.newWindow (s : State) (bytes : List Byte) : Option Window :=
  if entryValid bytes then s.entryFields bytes else some .empty

/-- A new window shares a line with another valid entry or with the journal region (R202). -/
def State.windowConflict (s : State) (index : Nat) (w : Window) : Bool :=
  w.valid &&
    ((s.windows.zipIdx.any fun p => p.2 != index && p.1.meets w.base.toNat w.bytes) ||
      s.config.any fun c => rangesMeet c.base.toNat c.size w.base.toNat w.bytes)

/-- A live group has a member in a window's range (R43, R202). -/
def State.windowBusy (s : State) (w : Window) : Bool :=
  w.valid && s.memberInRange w.base.toNat w.bytes

/-- COMMIT ENTRY takes effect (R203). -/
def State.putWindow (s : State) (index : Nat) (w : Window) (e : PendingEntry) : State :=
  State.respond
    { s with windows := s.windows.set index w, pendingEntry := some { e with accepted := true } }
    .done []

/-- COMMIT ENTRY's conditions 4 to 8, the echo triple having matched (R202). -/
def State.commitMatched (s : State) (e : PendingEntry) : State :=
  if e.short then s.refuse .badArgument
  else if 15 < e.index.toNat then s.refuse .badArgument
  else
    match s.newWindow e.bytes with
    | none => s.refuse .badArgument
    | some w =>
      if s.windowConflict e.index.toNat w then s.refuse .conflict
      else if s.windowBusy (s.windowOf e.index.toNat) || s.windowBusy w then s.refuse .busy
      else s.putWindow e.index.toNat w e

/-- COMMIT ENTRY's judgement (R202). -/
def doCommitEntry (params : List Byte) (s : State) : State :=
  if s.mode = .halted ∨ s.mode = .safe then s.refuse .badState
  else
    match s.pendingEntry with
    | none => s.refuse .empty
    | some e =>
      if params = [e.index, e.check, flagsByte e] then s.commitMatched e else s.refuse .mismatch

/-! ### START and READ FAULT (R118, R205) -/

/-- The acceptance of START: RECOVERING, the engine begins, and the lower hold timer starts if the lower
link is not UP and it is not running (R118, R120, R172). -/
def State.startPart (s : State) (fresh : Bool) (epoch : Num32) : State :=
  State.respond
    { s.setMode .recovering with
      recovery := .started fresh epoch
      holdTimer := if s.lower.state = .up then s.holdTimer
        else s.holdTimer <|> some s.params.holdTime }
    .done []

/-- START's judgement (R118, R195). -/
def doStart (params : List Byte) (s : State) : State :=
  if s.mode ≠ .unconfigured then s.refuse .badState
  else if s.config = none then s.refuse .badState
  else if 1 < byteAt params 0 then s.refuse .badArgument
  else s.startPart (byteAt params 0 == 1) (BitVec.ofNat 32 (fieldAt params 1 4))

/-- READ FAULT: the oldest record leaves the list and is the answer (R205). -/
def doReadFault (_params : List Byte) (s : State) : State :=
  match s.faults with
  | [] => s.refuse .empty
  | r :: rest =>
    State.respond { s with faults := rest, alert := !rest.isEmpty } .done (faultBytes r)

/-! ### The commands -/

/-- IDENTIFY (R196). -/
def execIdentify (body : List Byte) (s : State) : Host.Outcome State Fault Refusal :=
  s.event fun s => s.command 0 body doIdentify

/-- READ_STATUS (R197). -/
def execReadStatus (body : List Byte) (s : State) : Host.Outcome State Fault Refusal :=
  s.event fun s => s.command 0 body doReadStatus

/-- SET_JOURNAL (R198). -/
def execSetJournal (body : List Byte) (s : State) : Host.Outcome State Fault Refusal :=
  s.event fun s => s.command 15 body doSetJournal

/-- SET_PARAMETERS (R199). -/
def execSetParameters (body : List Byte) (s : State) : Host.Outcome State Fault Refusal :=
  s.event fun s => s.command 5 body doSetParameters

/-- WRITE_PENDING_ENTRY (R200). -/
def execWritePendingEntry (body : List Byte) (s : State) : Host.Outcome State Fault Refusal :=
  s.event fun s => s.writePending body

/-- READ_PENDING_ENTRY (R201). -/
def execReadPendingEntry (body : List Byte) (s : State) : Host.Outcome State Fault Refusal :=
  s.event fun s => s.command 0 body doReadPending

/-- COMMIT_ENTRY (R202). -/
def execCommitEntry (body : List Byte) (s : State) : Host.Outcome State Fault Refusal :=
  s.event fun s => s.command 3 body doCommitEntry

/-- READ_ENTRY (R201). -/
def execReadEntry (body : List Byte) (s : State) : Host.Outcome State Fault Refusal :=
  s.event fun s => s.command 1 body doReadEntry

/-- START (R118). -/
def execStart (body : List Byte) (s : State) : Host.Outcome State Fault Refusal :=
  s.event fun s => s.command 5 body doStart

/-- READ_FAULT (R205). -/
def execReadFault (body : List Byte) (s : State) : Host.Outcome State Fault Refusal :=
  s.event fun s => s.command 0 body doReadFault

/-- UNKNOWN_COMMAND_CODE: refused, whatever follows the code (R193). -/
def execUnknownCommandCode (_code : Byte) (_body : List Byte) (s : State) :
    Host.Outcome State Fault Refusal :=
  s.event fun s => s.refuse .badArgument

end Sys2Proof.Machine
end

