-- ==== Sys2Proof/Machine/ResetPower.lean ====
section
/-! DEFINITION. The resets and the power-fail pin: POWER_ON_RESET, WARM_RESET, PFW_N_ASSERTED,
PFW_N_DEASSERTED (R137, R151, R152, R212). -/

namespace Sys2Proof.Machine

/-- The management address the straps give (R212). -/
def strapAddress (addr1 addr0 : Bool) : BitVec 7 :=
  match addr1, addr0 with
  | false, false => 0x38#7
  | false, true => 0x39#7
  | true, false => 0x3A#7
  | true, true => 0x3B#7

/-- The state after power-on reset, before training: every block in its power-on state, the straps
sampled; the queue of commands and the level of PFW_N are outside the part (R151, R206, R212). -/
def State.powerOn (s : State) (addr1 addr0 : Bool) : State :=
  { State.reset with
    pending := s.pending
    pfwAsserted := s.pfwAsserted
    i2cAddress := strapAddress addr1 addr0 }

/-- The state after warm reset, before training: the configuration, the parameters, the window table,
the address and the fault list with its counter are kept (R152, R206, R22, R98). -/
def State.warmed (s : State) : State :=
  { State.reset with
    pending := s.pending
    pfwAsserted := s.pfwAsserted
    i2cAddress := s.i2cAddress
    windows := s.windows
    config := s.config
    params := s.params
    faults := s.faults
    faultSeq := s.faultSeq
    alert := !s.faults.isEmpty }

/-- POWER_ON_RESET (R151): the part is reset, and both links start training (log 4). -/
def execPowerOnReset (addr1 addr0 : Bool) (s : State) : Host.Outcome State Fault Refusal :=
  .next (s.powerOn addr1 addr0).trainPorts

/-- WARM_RESET (R152): working state is cleared, and both links start training (log 4). -/
def execWarmReset (s : State) : Host.Outcome State Fault Refusal := .next s.warmed.trainPorts

/-- PFW_N_ASSERTED (R137): the pin is found asserted, with the transition of the mode. -/
def execPfwNAsserted (s : State) : Host.Outcome State Fault Refusal :=
  State.event { s with pfwAsserted := true } id

/-- PFW_N_DEASSERTED (R137): no mode changes. The level falls before the event samples it, so an assertion
that stands through a reset and is withdrawn in the very first event after it is not found, and the mode stays
UNCONFIGURED: the model's choice (log 5). -/
def execPfwNDeasserted (s : State) : Host.Outcome State Fault Refusal :=
  State.event { s with pfwAsserted := false } id

end Sys2Proof.Machine
end

