-- ==== Sys2Proof/Machine/Timers.lean ====
section
/-! DEFINITION. The timers' expiries (R147, R156, R159, R163, R172, R180). The expiry of a timer that is
stopped has no effect (log 2). -/

namespace Sys2Proof.Machine

/-- The refresh timer's expiry while the upper link is UP: a CREDIT unit (R180). -/
def State.refreshExpiry (s : State) : State :=
  if s.credits.refresh = true ∧ s.upper.state = .up then s.sendCredit else s

/-- The lower hold timer's expiry: LOWER_LOSS is reported (R141, R172, R185). -/
def State.holdExpiry (s : State) : State := if s.holdTimer.isSome then s.lowerLoss else s

/-- The budget timer's expiry (R147). -/
def State.budgetTimerExpiry (s : State) : State :=
  if s.budgetTimer.isSome then s.budgetExpiry else s

/-- ACK_TIMER_EXPIRY (R159). -/
def execAckTimerExpiry (l : Link) (s : State) : Host.Outcome State Fault Refusal :=
  s.event fun s => s.ackExpiry l

/-- REPLAY_TIMER_EXPIRY (R163). -/
def execReplayTimerExpiry (l : Link) (s : State) : Host.Outcome State Fault Refusal :=
  s.event fun s => s.replayExpiry l

/-- TRAINING_TIMER_EXPIRY (R156). -/
def execTrainingTimerExpiry (l : Link) (s : State) : Host.Outcome State Fault Refusal :=
  s.event fun s => s.trainingExpiry l

/-- REFRESH_TIMER_EXPIRY (R180). -/
def execRefreshTimerExpiry (s : State) : Host.Outcome State Fault Refusal :=
  s.event State.refreshExpiry

/-- LOWER_HOLD_TIMER_EXPIRY (R172). -/
def execLowerHoldTimerExpiry (s : State) : Host.Outcome State Fault Refusal :=
  s.event State.holdExpiry

/-- BUDGET_TIMER_EXPIRY (R147). -/
def execBudgetTimerExpiry (s : State) : Host.Outcome State Fault Refusal :=
  s.event State.budgetTimerExpiry

end Sys2Proof.Machine
end

