-- ==== Sys2Proof/Machine/UpperSend.lean ====
section
/-! DEFINITION. What the ULP sends of its own: COMPLETION_TAKEN and CREDIT_UNIT_SENT (R106, R180). -/

namespace Sys2Proof.Machine

/-- A completion is sent on the upper link: it takes the next sequence and joins the retry buffer (R161,
R165). -/
def State.sendCompletion (s : State) (c : Completion) : State :=
  let packet : UpperPacket := { seq := s.upper.nextTx, completion := c }
  State.emit
    { s with
      upperRetry := s.upperRetry ++ [packet]
      upper := { s.upper with nextTx := s.upper.nextTx + 1#12, replayTimer := true } }
    (.completion s.upper.nextTx c)

/-- The completion a formed entry stands for. -/
def State.formedCompletion (s : State) : Formed → Option Completion
  | .direct c => some c
  | .record i =>
    match s.read? i with
    | none => none
    | some rec =>
      match rec.state with
      | .done c => some c
      | _ => none

/-- Its record, if it has one, becomes free, and its read credit returns (R106, R18). -/
def State.freeFormed (s : State) : Formed → State
  | .direct _ => s
  | .record i => s.freeRead i

/-- The ULP can send a completion: UP, room in the retry buffer (R106, R161), and no CREDIT unit due,
which goes ahead of it (R180; log 17). -/
def State.mayTakeCompletion (s : State) : Bool :=
  s.upper.state == .up && !s.credits.due &&
    decide (s.upperRetry.length < Config.upperRetryPackets)

/-- The ULP takes the oldest formed completion (R106; log 17). -/
def State.takeCompletion (s : State) : State :=
  match s.formed with
  | [] => s
  | f :: rest =>
    if s.mayTakeCompletion then
      match s.formedCompletion f with
      | none => s
      | some c => (State.sendCompletion { s with formed := rest } c).freeFormed f
    else s

/-- A due CREDIT unit is sent (R180). -/
def State.sendDueCredit (s : State) : State :=
  if s.credits.due = true ∧ s.upper.state = .up then s.sendCredit else s

/-- COMPLETION_TAKEN (R106). -/
def execCompletionTaken (s : State) : Host.Outcome State Fault Refusal := s.event State.takeCompletion

/-- CREDIT_UNIT_SENT (R180). -/
def execCreditUnitSent (s : State) : Host.Outcome State Fault Refusal := s.event State.sendDueCredit

end Sys2Proof.Machine
end

