-- ==== Sys2Proof/Machine/Dispatch.lean ====
section
/-! DEFINITION. The meaning of every command, one arm per constructor. -/

namespace Sys2Proof.Machine

/-- A command's effect on everything but the queue of waiting commands. -/
def exec (i : Instr) (s : State) : Host.Outcome State Fault Refusal :=
  match i with
  -- resets and pins
  | .powerOnReset addr1 addr0 => Sys2Proof.Machine.execPowerOnReset addr1 addr0 s
  | .warmReset => Sys2Proof.Machine.execWarmReset s
  | .pfwNAsserted => Sys2Proof.Machine.execPfwNAsserted s
  | .pfwNDeasserted => Sys2Proof.Machine.execPfwNDeasserted s
  -- packets received
  | .transactionPacket port bytes => Sys2Proof.Machine.execTransactionPacket port bytes s
  | .init port bytes => Sys2Proof.Machine.execInit port bytes s
  | .ack port bytes => Sys2Proof.Machine.execAck port bytes s
  | .nak port bytes => Sys2Proof.Machine.execNak port bytes s
  | .credit port bytes => Sys2Proof.Machine.execCredit port bytes s
  -- timers
  | .ackTimerExpiry port => Sys2Proof.Machine.execAckTimerExpiry port s
  | .replayTimerExpiry port => Sys2Proof.Machine.execReplayTimerExpiry port s
  | .trainingTimerExpiry port => Sys2Proof.Machine.execTrainingTimerExpiry port s
  | .refreshTimerExpiry => Sys2Proof.Machine.execRefreshTimerExpiry s
  | .lowerHoldTimerExpiry => Sys2Proof.Machine.execLowerHoldTimerExpiry s
  | .budgetTimerExpiry => Sys2Proof.Machine.execBudgetTimerExpiry s
  -- management commands
  | .identify body => Sys2Proof.Machine.execIdentify body s
  | .readStatus body => Sys2Proof.Machine.execReadStatus body s
  | .setJournal body => Sys2Proof.Machine.execSetJournal body s
  | .setParameters body => Sys2Proof.Machine.execSetParameters body s
  | .writePendingEntry body => Sys2Proof.Machine.execWritePendingEntry body s
  | .readPendingEntry body => Sys2Proof.Machine.execReadPendingEntry body s
  | .commitEntry body => Sys2Proof.Machine.execCommitEntry body s
  | .readEntry body => Sys2Proof.Machine.execReadEntry body s
  | .start body => Sys2Proof.Machine.execStart body s
  | .readFault body => Sys2Proof.Machine.execReadFault body s
  | .unknownCommandCode code body => Sys2Proof.Machine.execUnknownCommandCode code body s
  -- the part's own events
  | .takeRequest => Sys2Proof.Machine.execTakeRequest s
  | .linkDownMarkerAtHead => Sys2Proof.Machine.execLinkDownMarkerAtHead s
  | .holdupIntake => Sys2Proof.Machine.execHoldupIntake s
  | .arbiterGrant => Sys2Proof.Machine.execArbiterGrant s
  | .reservation => Sys2Proof.Machine.execReservation s
  | .applyTakeGroup => Sys2Proof.Machine.execApplyTakeGroup s
  | .checkpointStart => Sys2Proof.Machine.execCheckpointStart s
  | .completionTaken => Sys2Proof.Machine.execCompletionTaken s
  | .creditUnitSent => Sys2Proof.Machine.execCreditUnitSent s

end Sys2Proof.Machine
end

