-- ==== Sys2Proof/Safety.lean ====
section
/-! DEFINITION. The properties the statements speak of: what a command leaves, the calm state in which
an event begins with nothing owed, and the invariants of the part. -/

namespace Sys2Proof.Machine

/-! ### Speaking of a command's outcome -/

/-- The command answers a next state, and that state satisfies `P`. -/
def After (c : Instr) (s : State) (P : State → Prop) : Prop := ∃ t, exec c s = .next t ∧ P t

/-- Neither port is DOWN without being held DOWN: no port is owed the training of R155. -/
abbrev State.trained (s : State) : Prop :=
  (s.upper.state = .down → s.upper.heldDown = true) ∧
    (s.lower.state = .down → s.lower.heldDown = true)

/-- The modes PFW_N has no effect in (R137). -/
abbrev Mode.ignoresPfw (m : Mode) : Prop := m = .holdup ∨ m = .safe ∨ m = .halted

/-- Nothing is owed at an event's beginning: no port is to train, and PFW_N is deasserted or has no
effect in the mode (R137, R155). -/
abbrev State.calm (s : State) : Prop := s.trained ∧ (s.pfwAsserted = true → s.mode.ignoresPfw)

/-- The command answers a next state: the end of the event (log 20) after its own effect, which leaves a
state that satisfies `P`. -/
def EffectOf (c : Instr) (s : State) (P : State → Prop) : Prop :=
  ∃ u : State, exec c s = .next u.endEvent ∧ P u

/-- A port that has just started training out of an ended session: INIT sent, every sequence and count at
its starting value, no other timer running (R155, R167, R170). -/
def Port.restarted (p : Port) : Port :=
  { state := .training, nextTx := 0#12, expRx := 0#12, lastAcc := 4095#12, unacked := 0
    ackTimer := false, nakOut := false, replayCount := 0, replayTimer := false
    trainTimer := true, initSent := true, initRecv := false, heldDown := p.heldDown }

/-- A fault record with the present sequence number, and no optional field. -/
def State.record (s : State) (cause : Cause) (mode : Mode) : FaultRecord :=
  { seq := s.faultSeq, cause := cause, mode := mode, stream := none, serial := none, addr := none
    count := none, link := none }

/-- The state with a record at the end of its fault list (R204). -/
def State.recorded (s : State) (r : FaultRecord) : State :=
  { s with faults := pushFault s.faults r, faultSeq := s.faultSeq + 1#16, alert := true }

/-- A good completion in sequence on the lower link in UP, for an OUTSTANDING tag that is not detached:
its answer reaches the tag's owner (R158, R166, R184). -/
abbrev State.Answered (s : State) (bytes : List Byte) (info : TagInfo) : Prop :=
  s.calm ∧ s.lower.state = .up ∧ frameGood .lower bytes = true ∧ frameSeq bytes = s.lower.expRx ∧
    isCompletion bytes = true ∧ s.tag (completionTag bytes) = .outstanding info ∧
    info.detached = false

/-- A tag's wait has ended: it is SPENT while its packet is not acknowledged, else FREE (R169, R183). -/
def State.TagEnded (s u : State) (t : Nat) (info : TagInfo) : Prop :=
  u.tag t =
    if s.lowerRetry.any fun p => !p.acked && p.body.tag? == some t then .spent info else .free

/-- The arbiter may grant, no claim is held, and the round-robin position is `n` (R186). -/
abbrev State.GrantsFrom (s : State) (n : Nat) : Prop :=
  s.calm ∧ s.lower.state = .up ∧ (∀ p ∈ s.lowerRetry, p.resend = false) ∧
    s.lowerRetry.length < 64 ∧ s.claims = .none ∧ s.robin = n

/-- A fence has been granted under tag `t`, recording the pass-send count, which the granted mark takes
(R108, R183, R189). -/
def State.FenceGranted (s u : State) (t : Nat) (owner : Owner) (purpose : Purpose) (ref : TagRef) :
    Prop :=
  u.sent = [.request s.lower.nextTx (.fence t)] ∧
    u.tag t = .outstanding
      { owner := owner, purpose := purpose, ref := ref, passCount := some s.marks.passSend
        detached := false } ∧
    u.marks = { s.marks with granted := s.marks.passSend }

/-- A claim held by another source bars a packet of `src` that needs the claimed kind (R187). -/
def Claims.HeldAgainst (c : Claims) (src : Source) (need : Amount) : Prop :=
  (0 < need.wh ∧ ∃ h, c.wh = some h ∧ h ≠ src) ∨ (0 < need.wd ∧ ∃ h, c.wd = some h ∧ h ≠ src) ∨
    0 < need.rd ∧ ∃ h, c.rd = some h ∧ h ≠ src

/-- A PASS entry is under the redo hold: a group closed before it has a member on its line (R58). -/
def State.UnderRedoHold (s : State) (e : Entry) : Prop :=
  ∃ m ∈ s.staging.entries, ∃ r k st g c, m.kind = .member r k st ∧ lineOf m.addr = lineOf e.addr ∧
    s.group? r = some g ∧ g.closeIntake = some c ∧ earlier c e.intake = true

/-- A live group has closed and is not yet COMMITTED (R96, R107). -/
def Group.Uncommitted (g : Group) : Prop :=
  g.serial.isSome = true ∧ (g.state = .closed ∨ g.state = .journaling ∨ g.state = .committing)

/-- No group of a stream that `p` admits, closed before the serial bound, is uncommitted (R107, R111). -/
def State.FlushGroupsSafe (s : State) (p : Nat → Prop) (bound : Option Num32) : Prop :=
  ∀ r g n b, s.group? r = some g → g.serial = some n → bound = some b → earlier n b = true →
    p g.stream → g.state ≠ .closed ∧ g.state ≠ .journaling ∧ g.state ≠ .committing

/-- The upper link has entered DOWN out of the session of `s`, with `before` the state the record of the
entry joins: it trains afresh, its retry buffer and the formed completions are empty, every read record is
an orphan, one LINK_DOWN marker stands at the queue's tail, the requester's credits are gone, the limits
advertised again only where the mode advertises them, and a record carries the number of packets emptied
(R2, R113, R114, R167, R179). The record of a dropped completion is free, every other stays as an orphan;
a dropped stream flush's taken count and cause go back to its stream, stated for a stream with one such
flush (R39, R114; several on one stream are log 18's order), in every mode (log 38). -/
def State.UpperSessionEnded (s before u : State) : Prop :=
  let r : FaultRecord := { before.record .upperLinkDown s.mode with
    link := some .upper, count := some s.upperRetry.length }
  u.upper = s.upper.restarted ∧ u.upperRetry = [] ∧ u.formed = [] ∧
    (∀ i rec, u.read? i = some rec → rec.orphan = true) ∧
    u.queue = (if s.queue.getLast? = some .linkDownMarker then s.queue
      else s.queue ++ [.linkDownMarker]) ∧
    u.credits.consumed = .zero ∧ u.credits.refresh = false ∧
    (if s.mode.advertises then u.credits.pool = .zero else u.credits.limit = .zero) ∧
    u.sent.getLast? = some (.unit .upper (.init .train false u.credits.limit)) ∧
    u.faults = pushFault before.faults r ∧ u.faultSeq = before.faultSeq + 1#16 ∧ u.mode = s.mode ∧
    u.groups = s.groups ∧ u.staging = s.staging ∧ u.lower = s.lower ∧ u.lowerRetry = s.lowerRetry ∧
    u.tags = s.tags ∧ u.intake = s.intake ∧ u.journal = s.journal ∧
    (∀ i, .record i ∈ s.formed → u.read? i = none) ∧
    (∀ i rec, .record i ∉ s.formed → s.read? i = some rec →
      u.read? i = some { rec with orphan := true }) ∧
    (∀ k, (∀ i rec b t, .record i ∈ s.formed → s.read? i = some rec →
        rec.kind ≠ .streamFlush k b (some t)) → u.stream k = s.stream k) ∧
    ∀ i rec k b t, .record i ∈ s.formed → s.read? i = some rec → rec.kind = .streamFlush k b (some t) →
      k < s.streams.length →
      (∀ j rec' b' t', .record j ∈ s.formed → j ≠ i → s.read? j = some rec' →
        rec'.kind ≠ .streamFlush k b' (some t')) →
      u.stream k =
        { s.stream k with
          discards := min 255 ((s.stream k).discards + t.count)
          lastCause := (s.stream k).lastCause <|> t.cause }

/-! ### What the intake queue holds -/

/-- The credits an item of the intake queue holds (R1, R176). -/
def QueueItem.charge : QueueItem → Amount
  | .request r => r.charge
  | .linkDownMarker => .zero
  | .holdupMarker => .zero

/-- The credits the intake queue holds. -/
def queueCharge : List QueueItem → Amount
  | [] => .zero
  | item :: rest => item.charge.add (queueCharge rest)

/-- The FAILED answers of the reads and flushes an intake queue holds, in queue order; a request with a
LINK_DOWN marker behind it gets none (R18). -/
def failedAnswers : List QueueItem → List Formed
  | [] => []
  | .request r :: rest =>
    (if r.kind = .read ∧ .linkDownMarker ∉ rest then
      [.direct { tag := r.tag, status := .failed, data := [] }]
    else []) ++ failedAnswers rest
  | .linkDownMarker :: rest => failedAnswers rest
  | .holdupMarker :: rest => failedAnswers rest

/-- The queue of `s` has been discarded as HOLDUP does it: nothing is queued, every charge is back in
the pools, and with the upper link UP its reads and flushes are answered FAILED (R18, R19). -/
def State.queueDiscarded (s : State) : State :=
  { s with
    queue := []
    formed := s.formed ++ if s.upper.state = .up then failedAnswers s.queue else []
    credits := { s.credits with pool := s.credits.pool.add (queueCharge s.queue) } }

/-! ### Discards and the re-send -/

/-- The OPEN groups in ascending order of stream: the stream, the record, the group (R40, R41). -/
def State.openGroups (s : State) : List (Nat × Nat × Group) :=
  (List.range Config.streams).filterMap fun i =>
    (s.stream i).group.bind fun r => (s.group? r).map fun g => (i, r, g)

/-- The staged members of the OPEN groups (R37). -/
def State.openMembers (s : State) : List Entry :=
  s.staging.entries.filter fun e => s.openGroups.any fun p => e.inRecord p.2.1

/-- The credits the members of the OPEN groups hold (R37). -/
def State.openAmount (s : State) : Amount :=
  { wh := s.openMembers.length, wd := totalUnits s.openMembers, rd := 0 }

/-- Every OPEN group of `s` has been discarded: a fault record for each, in ascending order of stream, with
its stream and member count, and every staged member freed (R37, R40, R41). -/
def State.OpenDiscarded (s u : State) (mode : Mode) (cause : Cause) : Prop :=
  let listed := s.openGroups.foldl (fun x p =>
    x.recorded { x.record cause mode with stream := some p.1, count := some p.2.2.count }) s
  u.faults = listed.faults ∧ u.faultSeq = listed.faultSeq ∧ u.alert = listed.alert ∧
    u.staging =
      { entries := s.staging.entries.filter fun e => !s.openGroups.any fun p => e.inRecord p.2.1
        freeEntries := s.staging.freeEntries + s.openMembers.length
        freeUnits := s.staging.freeUnits + totalUnits s.openMembers }

/-- The re-send out of `s` has left `u`, with the module's limits, the consumed counts and the next
sequence as given, and `first` sent ahead of it. The first `k` marked packets go out in the order of the
buffer: each fits the credit that the charges before it left, takes the next sequence, is charged and loses
its mark; the next one does not fit; every other packet of the buffer is as it was (R171, R182). -/
def State.Resends (s u : State) (limits consumed : Limits) (next : Seq) (first : List Sent) : Prop :=
  let marked := s.lowerRetry.filter LowerPacket.resend
  let spent := fun n : Nat => (marked.take n).foldl (fun c p => c.raise p.body.charge) consumed
  let available := fun n : Nat =>
    State.lowerAvailable { s with lowerCredits := { limit := limits, consumed := spent n } }
  let rank := fun i : Nat => (s.lowerRetry.take i).countP LowerPacket.resend
  ∃ k, k ≤ marked.length ∧
    (∀ n p, n < k → marked[n]? = some p → p.body.charge.fits (available n) = true) ∧
    (∀ p, marked[k]? = some p → p.body.charge.fits (available k) = false) ∧
    u.sent = first ++
      (marked.take k).zipIdx.map (fun p => .request (next + BitVec.ofNat 12 p.2) p.1.body) ∧
    u.lowerCredits = { limit := limits, consumed := spent k } ∧
    u.lower.nextTx = next + BitVec.ofNat 12 k ∧ (0 < k → u.lower.replayTimer = true) ∧
    u.lowerRetry.length = s.lowerRetry.length ∧
    ∀ i p, s.lowerRetry[i]? = some p →
      u.lowerRetry[i]? = some
        (if p.resend = true ∧ rank i < k then
          { p with seq := next + BitVec.ofNat 12 (rank i), resend := false }
        else p)

/-! ### What no packet, timer or event of the part's own writes -/

/-- The queue of commands, the pins and the management port's configuration. -/
structure Fixed where
  pending : List Instr
  pfwAsserted : Bool
  i2cAddress : BitVec 7
  windows : List Window
  config : Option JournalConfig
  params : Params
  pendingEntry : Option PendingEntry
  response : Option Response
  deriving DecidableEq, Repr

/-- The fixed part of a state. -/
def State.fixed (s : State) : Fixed :=
  { pending := s.pending, pfwAsserted := s.pfwAsserted, i2cAddress := s.i2cAddress
    windows := s.windows, config := s.config, params := s.params
    pendingEntry := s.pendingEntry, response := s.response }

/-- The blocks' work: what a management command that is only a question leaves as it was. -/
structure Work where
  mode : Mode
  queue : List QueueItem
  intake : Num32
  groups : List (Option Group)
  serial : Option Num32
  journal : Journal
  apply : Option ApplyCurrent
  ckpt : Checkpoint
  marks : Marks
  recovery : Recovery
  upper : Port
  lower : Port
  upperRetry : List UpperPacket
  lowerRetry : List LowerPacket
  lowerCredits : LowerCredits
  tags : List LowerTag
  holdTimer : Option Nat
  budgetTimer : Option Nat
  robin : Nat
  staging : Staging
  faults : List FaultRecord
  faultSeq : BitVec 16
  deriving DecidableEq, Repr

/-- The blocks' work in a state. -/
def State.work (s : State) : Work :=
  { mode := s.mode, queue := s.queue, intake := s.intake, groups := s.groups, serial := s.serial
    journal := s.journal, apply := s.apply, ckpt := s.ckpt, marks := s.marks
    recovery := s.recovery, upper := s.upper, lower := s.lower, upperRetry := s.upperRetry
    lowerRetry := s.lowerRetry, lowerCredits := s.lowerCredits, tags := s.tags
    holdTimer := s.holdTimer, budgetTimer := s.budgetTimer, robin := s.robin
    staging := s.staging, faults := s.faults, faultSeq := s.faultSeq }

/-! ### Invariants -/

/-- The SAFE line follows the mode (R150), ALERT_N the fault list (R204), and the list holds at most 32
records (R204). -/
abbrev State.linesGood (s : State) : Prop :=
  s.safeLine = s.mode.isSafeLine ∧ s.alert = !s.faults.isEmpty ∧
    s.faults.length ≤ Config.faultRecords

/-- Every table has its size (R5, R23, R25, R99, R183), the retry buffers are within theirs (R155,
R161), and the round-robin position names a source (R186). -/
abbrev State.sized (s : State) : Prop :=
  s.windows.length = Config.windowEntries ∧ s.groups.length = Config.groupRecords ∧
    s.streams.length = Config.streams ∧ s.reads.length = Config.readRecords ∧
    s.tags.length = Config.lowerTags ∧ s.upperRetry.length ≤ Config.upperRetryPackets ∧
    s.lowerRetry.length ≤ Config.lowerRetryPackets ∧ s.robin < 7

/-- The LLP is held DOWN exactly in HALTED, with its link DOWN and the lower hold timer stopped (R155,
R173); the budget timer runs exactly in HOLDUP (R143, R146, R147, R149). -/
abbrev State.modeGood (s : State) : Prop :=
  (s.lower.heldDown = true ↔ s.mode = .halted) ∧ (s.mode = .halted → s.lower.state = .down) ∧
    (s.mode = .halted → s.holdTimer = none) ∧ (s.budgetTimer.isSome = true ↔ s.mode = .holdup)

/-- A port's record is in order: the training timer runs in TRAINING and RETRAIN only, INIT sent is set
there, NAK is outstanding only in UP, and the counts are in range (R155, R156, R160, R163). -/
abbrev Port.inOrder (p : Port) : Prop :=
  (p.trainTimer = true ↔ p.state = .training ∨ p.state = .retrain) ∧
    (p.trainTimer = true → p.initSent = true ∧ p.initRecv = false) ∧
    (p.nakOut = true → p.state = .up) ∧ p.unacked < Config.ackEvery ∧
    p.replayCount ≤ Config.replayLimit

/-- Both ports are in order, the upper is never held DOWN, and the refresh timer runs exactly while the
upper link is UP (R155, R180). -/
abbrev State.portsGood (s : State) : Prop :=
  s.upper.inOrder ∧ s.lower.inOrder ∧ s.upper.heldDown = false ∧
    (s.credits.refresh = true ↔ s.upper.state = .up)

/-! ### The credit balance (R49, R175) -/

/-- The credits of the resources in use (R175). -/
def State.inUseAmount (s : State) : Amount :=
  { wh := s.staging.entries.length, wd := totalUnits s.staging.entries, rd := s.liveReads.length }

/-- The credits not held by anything: the return pools and the unconsumed advertised credits. -/
def UpperCredits.unheld (c : UpperCredits) : Amount := c.pool.add (unconsumed c.limit c.consumed)

/-- The balance of R175: resources in use, reservations in the queue, pools and unconsumed advertised
credits make up each capacity; and the free counts agree with the list (R49). -/
abbrev State.balanced (s : State) : Prop :=
  s.inUseAmount.add ((queueCharge s.queue).add s.credits.unheld) = .capacity ∧
    s.staging.freeEntries + s.staging.entries.length = Config.stagingEntries ∧
    s.staging.freeUnits + totalUnits s.staging.entries = Config.stagingUnits

/-- A stream's OPEN group is a record in use of that stream that has not closed (R23, R28). -/
def State.streamGood (s : State) (i : Nat) : Prop :=
  ∀ r, (s.stream i).group = some r → ∃ g, s.group? r = some g ∧ g.stream = i ∧ g.serial = none

/-- The queue holds at most 160 requests by the balance of credits (R1, R49, R175): the balance, with
what it rests on. -/
def State.creditGood (s : State) : Prop :=
  s.sized ∧ s.balanced ∧ ∀ i, s.streamGood i

end Sys2Proof.Machine
end

