-- ==== Sys2Proof/Certificates/Slice0/Obligations.lean ====
section
/-! DEFINITION. The statements for the provers. Most say what a command's own effect leaves, in a calm
state (no port owed its training, PFW_N without effect); what the end of every event adds is
`State.endEvent`, of which `Obligations.EventEndTouchesOnlyStandingConditions` says all it can change. -/

open Sys2Proof Sys2Proof.Machine

/-! ### A step, an event -/

/-- A step runs the command at the front of the queue on the state with the queue's rest; an empty queue
idles, which is the model's choice (log 3). -/
def Obligations.StepRunsFrontCommand : Prop :=
  (∀ (c : Instr) (rest : List Instr) (s : State),
      step { s with pending := c :: rest } = exec c { s with pending := rest }) ∧
    ∀ s : State, s.pending = [] → step s = .next s

/-- Every command answers a next state, whatever the state, and leaves the queue of commands as it was. -/
def Obligations.EveryCommandAnswersNext : Prop :=
  ∀ (c : Instr) (s : State), After c s fun t => t.pending = s.pending

/-- Only the management port's commands and the resets change the window table, the journal
configuration, the parameters, the pending entry, the held response and the strapped address; only the
commands of the PFW_N pin change its level, which is the model's choice (log 5). -/
def Obligations.OnlyManagementChangesConfiguration : Prop :=
  ∀ (c : Instr) (s : State),
    (c = .pfwNAsserted ∨ c = .pfwNDeasserted ∨ c = .takeRequest ∨ c = .linkDownMarkerAtHead ∨
      c = .holdupIntake ∨ c = .arbiterGrant ∨ c = .reservation ∨ c = .applyTakeGroup ∨
      c = .checkpointStart ∨ c = .completionTaken ∨ c = .creditUnitSent ∨ c = .refreshTimerExpiry ∨
      c = .lowerHoldTimerExpiry ∨ c = .budgetTimerExpiry ∨
      (∃ l, c = .ackTimerExpiry l ∨ c = .replayTimerExpiry l ∨ c = .trainingTimerExpiry l) ∨
      ∃ l bytes, c = .transactionPacket l bytes ∨ c = .init l bytes ∨ c = .ack l bytes ∨
        c = .nak l bytes ∨ c = .credit l bytes) →
    After c s fun t =>
      t.windows = s.windows ∧ t.config = s.config ∧ t.params = s.params ∧
        t.pendingEntry = s.pendingEntry ∧ t.response = s.response ∧ t.i2cAddress = s.i2cAddress ∧
        (c ≠ .pfwNAsserted → c ≠ .pfwNDeasserted → t.pfwAsserted = s.pfwAsserted)

/-- What the end of an event examines (log 20): in every mode a credit claim ends when its holder has no
packet ready or is not permitted; in OPERATING the waiting flushes, which touch only the read records, the
formed completions, the discard counts and the read credits (one read credit back for each record freed), a
record in DONE staying as it is; in HOLDUP the hold-up work. Its journal part is complete when no live group is CLOSED, JOURNALING or COMMITTING. Pass
drain reports, once, when no PASS entry is left, or every one is under the redo hold with no checkpoint in
flight: the entries left are ABANDONED and counted, and the pass target takes the pass-send count. The
final fence is complete with the durable mark at or beyond the target. With the three parts complete
HOLDUP_DONE is recorded and the part is in SAFE; that a request still queued is discarded in this event is
the model's choice of R20's moment (log 37). -/
def Obligations.EventEndTouchesOnlyStandingConditions : Prop :=
  ∀ s : State,
    ((State.endEvent s).claims =
      { wh := s.claims.wh.filter fun src => ((State.endEvent s).offer src).isSome
        wd := s.claims.wd.filter fun src => ((State.endEvent s).offer src).isSome
        rd := s.claims.rd.filter fun src => ((State.endEvent s).offer src).isSome }) ∧
    (s.mode ≠ .operating → s.mode ≠ .holdup →
      State.endEvent s = { s with claims := (State.endEvent s).claims }) ∧
    (s.mode = .operating →
      State.endEvent s =
          { s with
            reads := (State.endEvent s).reads
            formed := (State.endEvent s).formed
            streams := (State.endEvent s).streams
            credits := (State.endEvent s).credits
            claims := (State.endEvent s).claims } ∧
        s.formed <+: (State.endEvent s).formed ∧
        (∃ n, (State.endEvent s).reads.countP Option.isSome + n = s.reads.countP Option.isSome ∧
          (State.endEvent s).credits = s.credits.giveBack true { wh := 0, wd := 0, rd := n }) ∧
        (∀ i, ((State.endEvent s).stream i).group = (s.stream i).group) ∧
        ∀ i rec c, s.read? i = some rec → rec.state = .done c → (State.endEvent s).read? i = some rec) ∧
    (s.mode = .holdup →
      let t := State.endEvent s
      let drained := (∀ e ∈ s.staging.entries, e.isPass = false) ∨
        s.ckpt.flight = none ∧ ∀ e ∈ s.staging.entries, e.isPass = true → s.UnderRedoHold e
      let reports := s.hold.drainDone = false ∧ drained
      let complete :=
        t.hold.journalDone = true ∧ t.hold.drainDone = true ∧ t.hold.fenceDone = true
      (t.hold.journalDone = true ↔
        s.hold.journalDone = true ∨ ∀ r g, s.group? r = some g → ¬g.Uncommitted) ∧
      (t.hold.drainDone = true ↔ s.hold.drainDone = true ∨ drained) ∧
      (reports →
        t.hold.target = some s.marks.passSend ∧
          t.hold.abandoned = s.staging.entries.countP Entry.isPass ∧
          t.staging = { s.staging with
            entries := s.staging.entries.map fun e =>
              if e.isPass then { e with kind := .pass .abandoned } else e }) ∧
      (¬reports →
        t.hold.target = s.hold.target ∧ t.hold.abandoned = s.hold.abandoned ∧
          t.staging = s.staging) ∧
      (t.hold.fenceDone = true ↔ s.hold.fenceDone = true ∨
        ∃ n, t.hold.target = some n ∧ (s.marks.durable = n ∨ earlier n s.marks.durable = true)) ∧
      (complete →
        t = { s.queueDiscarded.recorded
            { s.record .holdupDone .holdup with count := some t.hold.abandoned } with
          mode := .safe, safeLine := true, budgetTimer := none
          lower := { s.lower with replayTimer := false }, hold := t.hold, staging := t.staging
          claims := .none }) ∧
      (¬complete → t = { s with hold := t.hold, staging := t.staging, claims := t.claims }))

/-! ### Resets and the power-fail pin -/

/-- Power-on reset puts every block in its reset state and samples the straps; both links start training
in the same command (log 4). Warm reset leaves the same but for what it keeps: the address, the
configuration, the parameters, the window table, and the fault list with its counter and ALERT_N. -/
def Obligations.ResetsLeaveTheResetState : Prop :=
  (∀ (addr1 addr0 : Bool) (s : State),
      exec (.powerOnReset addr1 addr0) s = .next
        { pending := s.pending, pfwAsserted := s.pfwAsserted, safeLine := false, alert := false
          i2cAddress := 0x38#7 + (if addr1 then 2#7 else 0#7) + (if addr0 then 1#7 else 0#7)
          sent :=
            [.unit .upper (.init .train false { wh := 0#8, wd := 0#12, rd := 0#8 }),
              .unit .lower (.init .train false { wh := 0#8, wd := 0#12, rd := 0#8 })]
          mode := .unconfigured, budgetTimer := none
          hold :=
            { journalDone := false, drainDone := false, fenceDone := false, target := none
              abandoned := 0 }
          queue := [], intake := 0#32
          windows :=
            List.replicate 16
              { valid := false, base := 0#40, pages := 0, policy := .pass, ungrouped := .pass }
          groups := List.replicate 16 none
          streams := List.replicate 8 { group := none, discards := 0, lastCause := none }
          serial := none, staging := { entries := [], freeEntries := 128, freeUnits := 256 }
          config := none
          journal := { head := none, epoch := none, queue := [], current := none, spaceWait := false }
          apply := none, ckpt := { tail := none, generation := none, slot := none, flight := none }
          reads := List.replicate 32 none, formed := []
          marks := { passSend := 0#32, granted := 0#32, durable := 0#32 }
          recovery :=
            { phase := .idle, kind := none, epochParam := none, anchor0 := none, anchor1 := none
              scan := none, inFlight := [], fenceOut := false, replayed := 0 }
          upper := Port.restarted Port.reset, lower := Port.restarted Port.reset, upperRetry := []
          lowerRetry := []
          credits :=
            { consumed := { wh := 0#8, wd := 0#12, rd := 0#8 }
              limit := { wh := 0#8, wd := 0#12, rd := 0#8 }
              pool := { wh := 128, wd := 256, rd := 32 }, due := false, refresh := false }
          lowerCredits :=
            { limit := { wh := 0#8, wd := 0#12, rd := 0#8 }
              consumed := { wh := 0#8, wd := 0#12, rd := 0#8 } }
          tags := List.replicate 32 .free, holdTimer := none, robin := 0
          claims := { wh := none, wd := none, rd := none }
          params := { batch := 4, holdTime := 100, budget := 20, default := .deny }
          pendingEntry := none, response := none, faults := [], faultSeq := 0#16 }) ∧
  (∀ (addr1 addr0 : Bool) (s : State),
      After (.powerOnReset addr1 addr0) s fun t =>
        exec .warmReset s = .next
          { t with
            i2cAddress := s.i2cAddress
            windows := s.windows
            config := s.config
            params := s.params
            faults := s.faults
            faultSeq := s.faultSeq
            alert := !s.faults.isEmpty })

/-- PFW_N found asserted takes the part to SAFE from UNCONFIGURED and RECOVERING, and has no effect in
HOLDUP, SAFE and HALTED; its deassertion changes no mode by itself. That the event of the deassertion does not
find an assertion that stood through a reset is the model's choice (log 5). -/
def Obligations.PfwActsByMode : Prop :=
  ∀ s : State, s.trained →
    ((s.mode = .unconfigured ∨ s.mode = .recovering) →
      exec .pfwNAsserted s = .next
        { s with
          pfwAsserted := true, sent := [], mode := .safe, safeLine := true, budgetTimer := none
          lower := { s.lower with replayTimer := false }, claims := .none }) ∧
    ((s.mode = .safe ∨ s.mode = .halted) →
      exec .pfwNAsserted s = .next { s with pfwAsserted := true, sent := [], claims := .none }) ∧
    (s.mode = .holdup →
      exec .pfwNAsserted s = .next (State.endEvent { s with pfwAsserted := true, sent := [] })) ∧
    exec .pfwNDeasserted s = .next (State.endEvent { s with pfwAsserted := false, sent := [] })

/-- Hold-up entry: the budget timer takes the parameter, the queue is purged, every stream's OPEN group is
discarded, every read record ends in DONE, and the credit limits, the intake and serial counters, the
journal engine, the marks and every closed group stay as they were. The part may reach SAFE in the same
event when nothing is outstanding. Before the event's end the three parts are outstanding. Each OPEN group
has its POWER record, in ascending order of stream (their mode OPERATING is the model's reading, log 23), and
its members freed. A record not in DONE has FAILED (an orphan's is free, an ISSUED read's tag detached), one
in DONE is as it was; the FAILED completions are formed in intake order, the purged reads and flushes follow
in queue order, and all credits stand in the return pools. -/
def Obligations.HoldupEntryStopsTheIntake : Prop :=
  (∀ s : State, s.trained → s.mode = .operating → s.sized → (∀ i, s.streamGood i) →
    After .pfwNAsserted s fun t =>
      (t.mode = .holdup ∧ t.budgetTimer = some s.params.budget ∧ t.safeLine = false ∨
          t.mode = .safe ∧ t.budgetTimer = none ∧ t.safeLine = true) ∧
        t.queue = [] ∧ (∀ i, (t.stream i).group = none) ∧
        (∀ i rec, t.read? i = some rec → ∃ c, rec.state = .done c) ∧
        (∀ r g, s.group? r = some g → g.serial.isSome = true → t.group? r = some g) ∧
        t.credits.limit = s.credits.limit ∧ t.credits.consumed = s.credits.consumed ∧
        t.intake = s.intake ∧ t.serial = s.serial ∧ t.journal = s.journal ∧ t.apply = s.apply ∧
        t.ckpt = s.ckpt ∧ t.marks = s.marks ∧ t.lowerRetry = s.lowerRetry ∧ t.upper = s.upper) ∧
  ∀ s : State, s.trained → s.mode = .operating → s.sized → (∀ i, s.streamGood i) →
    let failing := fun rec : ReadRecord => ∀ c, rec.state ≠ .done c
    let dropped := s.reads.countP fun o => o.any fun rec => rec.orphan && match rec.state with
      | .done _ => false
      | _ => true
    EffectOf .pfwNAsserted s fun u =>
      u.mode = .holdup ∧ u.budgetTimer = some s.params.budget ∧ u.queue = [] ∧
        u.hold =
          { journalDone := false, drainDone := false, fenceDone := false, target := none
            abandoned := 0 } ∧
        s.OpenDiscarded u .operating .power ∧
        (∀ i r, (s.stream i).group = some r → (u.stream i).group = none ∧ u.group? r = none) ∧
        ((∀ i rec, s.read? i = some rec → rec.orphan = false) → ∀ i, u.stream i =
          match (s.stream i).group with
          | none => s.stream i
          | some _ =>
            { group := none, discards := min 255 ((s.stream i).discards + 1)
              lastCause := some .power }) ∧
        (∀ i rec, s.read? i = some rec →
          (¬failing rec → u.read? i = some rec) ∧
          (failing rec → rec.orphan = true → u.read? i = none) ∧
          (failing rec → rec.orphan = false → u.read? i = some
            { rec with state := .done { tag := rec.tag, status := .failed, data := [] } }) ∧
          ∀ t info, rec.state = .issued t → s.tag t = .outstanding info →
            u.tag t = .outstanding { info with detached := true }) ∧
        (∃ order : List Nat,
          u.formed = s.formed ++ order.map Formed.record ++
            (if s.upper.state = .up then failedAnswers s.queue else []) ∧
          order.Nodup ∧
          (∀ i, i ∈ order ↔ ∃ rec, s.read? i = some rec ∧ failing rec ∧ rec.orphan = false) ∧
          ∀ base, (∀ i rec, s.read? i = some rec → (rec.intake - base).toNat < 2 ^ 31) →
            order.Pairwise fun i j => ∀ a b, s.read? i = some a → s.read? j = some b →
              earlier b.intake a.intake = false) ∧
        u.credits = { s.credits with
          pool := ((s.credits.pool.add { wh := 0, wd := 0, rd := dropped }).add
            (queueCharge s.queue)).add s.openAmount }

/-! ### Packets received -/

/-- The charge of a request (R176), and a request within the advertised credits: the port's record moves
on, the consumed counts rise by the charge, and the request joins the tail of the intake queue. -/
def Obligations.RequestWithinCreditIsQueued : Prop :=
  (∀ r : Request,
      Request.charge r =
        match r.kind with
        | .read => { wh := 0, wd := 0, rd := 1 }
        | _ => { wh := 1, wd := if r.length ≤ 64 then (r.length + 15) / 16 else 4, rd := 0 }) ∧
    ∀ (bytes : List Byte) (s : State), s.calm → s.upper.state = .up → frameGood .upper bytes = true →
      frameSeq bytes = s.upper.expRx → isCompletion bytes = false → s.upper.unacked + 1 < 8 →
      (Request.charge (parseRequest bytes)).fits
          (unconsumed s.credits.limit s.credits.consumed) = true →
      exec (.transactionPacket .upper bytes) s = .next (State.endEvent
        { s with
          sent := []
          upper := { s.upper with
            expRx := s.upper.expRx + 1#12
            lastAcc := frameSeq bytes
            unacked := s.upper.unacked + 1
            nakOut := false
            ackTimer := s.upper.ackTimer || s.upper.unacked == 0 }
          credits := { s.credits with
            consumed := s.credits.consumed.raise (Request.charge (parseRequest bytes)) }
          queue := s.queue ++ [.request (parseRequest bytes)] })

/-- What takes the upper link DOWN ends its session: a request beyond the advertised credits, with a
CREDIT_OVERRUN record before the UPPER_LINK_DOWN record; the partner's restart (an INIT of kind TRAIN, not
a reply) in UP or RETRAIN; the training timer in RETRAIN. A formed stream flush completion that was not
taken is dropped and its count and cause go back to the stream, in every mode (log 38). That the accepted
count is 0 is the model's reading (log 13). -/
def Obligations.UpperLinkDownEndsTheSession : Prop :=
  (∀ (bytes : List Byte) (s : State), s.calm → s.upper.state = .up → frameGood .upper bytes = true →
      frameSeq bytes = s.upper.expRx → isCompletion bytes = false →
      (Request.charge (parseRequest bytes)).fits
          (unconsumed s.credits.limit s.credits.consumed) = false →
      EffectOf (.transactionPacket .upper bytes) s fun u =>
        State.UpperSessionEnded s
          (s.recorded { s.record .creditOverrun s.mode with
            addr := some (parseRequest bytes).addr, link := some .upper }) u) ∧
  (∀ (c : Instr) (s : State), s.calm →
      ((∃ bytes limits, c = .init .upper bytes ∧
          parseInit bytes = .good (.init .train false limits) ∧
          (s.upper.state = .up ∨ s.upper.state = .retrain)) ∨
        c = .trainingTimerExpiry .upper ∧ s.upper.trainTimer = true ∧ s.upper.state = .retrain) →
      EffectOf c s fun u => State.UpperSessionEnded s s u)

/-- A good packet in sequence of a kind its port does not receive, or a completion whose lower tag is not
outstanding, counts toward the next ACK, which is sent at the eighth, and does nothing else. That a packet
of kind 08h on the upper link is such a packet is the model's reading (log 9). -/
def Obligations.UnusedPacketCountsTowardTheAck : Prop :=
  ∀ (l : Link) (bytes : List Byte) (s : State), s.calm → (s.port l).state = .up →
    frameGood l bytes = true → frameSeq bytes = (s.port l).expRx →
    (isCompletion bytes = (l == .upper) ∨
      l = .lower ∧ isCompletion bytes = true ∧ ∀ i, s.tag (completionTag bytes) ≠ .outstanding i) →
    ((s.port l).unacked + 1 < 8 →
      exec (.transactionPacket l bytes) s = .next (State.endEvent (State.setPort { s with sent := [] } l
        { s.port l with
          expRx := (s.port l).expRx + 1#12
          lastAcc := frameSeq bytes
          unacked := (s.port l).unacked + 1
          nakOut := false
          ackTimer := (s.port l).ackTimer || (s.port l).unacked == 0 }))) ∧
    (8 ≤ (s.port l).unacked + 1 →
      exec (.transactionPacket l bytes) s = .next (State.endEvent
        (State.setPort { s with sent := [.unit l (.ack (frameSeq bytes))] } l
          { s.port l with
            expRx := (s.port l).expRx + 1#12
            lastAcc := frameSeq bytes
            unacked := 0
            nakOut := false
            ackTimer := false })))

/-- In UP a damaged packet, or a good one that is ahead, is answered with one NAK of the last accepted
sequence; a good one that is behind with an ACK of it; in any other state a packet is dropped. A link unit of
the wrong size or class byte is handled as a damaged packet; one with a bad CRC-16, or an INIT with a training
kind or reply flag above 01h, is discarded with no effect. -/
def Obligations.UnexpectedPacketIsAnsweredAndDropped : Prop :=
  (∀ (l : Link) (bytes : List Byte) (s : State), s.calm →
    let d := (frameSeq bytes - (s.port l).expRx).toNat
    ((s.port l).state = .up → (frameGood l bytes = false ∨ 1 ≤ d ∧ d ≤ 2047) →
      ((s.port l).nakOut = false →
        exec (.transactionPacket l bytes) s = .next (State.endEvent
          (State.setPort { s with sent := [.unit l (.nak (s.port l).lastAcc)] } l
            { s.port l with nakOut := true }))) ∧
      ((s.port l).nakOut = true →
        exec (.transactionPacket l bytes) s = .next (State.endEvent { s with sent := [] }))) ∧
    ((s.port l).state = .up → frameGood l bytes = true → 2048 ≤ d →
      exec (.transactionPacket l bytes) s = .next (State.endEvent
        (State.setPort { s with sent := [.unit l (.ack (s.port l).lastAcc)] } l
          { s.port l with unacked := 0, ackTimer := false }))) ∧
    ((s.port l).state ≠ .up →
      exec (.transactionPacket l bytes) s = .next (State.endEvent { s with sent := [] }))) ∧
  (∀ (c : Instr) (form : UnitForm) (l : Link) (bytes : List Byte) (s : State), s.calm →
    (c = .init l bytes ∧ form = parseInit bytes ∨ c = .ack l bytes ∧ form = parseAck bytes ∨
      c = .nak l bytes ∧ form = parseNak bytes ∨ c = .credit l bytes ∧ form = parseCredit bytes) →
    (form = .discarded ∨ form = .damaged ∧ ((s.port l).state ≠ .up ∨ (s.port l).nakOut = true) →
      exec c s = .next (State.endEvent { s with sent := [] })) ∧
    (form = .damaged → (s.port l).state = .up → (s.port l).nakOut = false →
      exec c s = .next (State.endEvent
        (State.setPort { s with sent := [.unit l (.nak (s.port l).lastAcc)] } l
          { s.port l with nakOut := true })))) ∧
  ∀ bytes : List Byte,
    let judged := fun (form : UnitForm) (cls size : Nat) (fields : Prop) =>
      (form = .damaged ↔ byteAt bytes 0 ≠ cls ∨ bytes.length ≠ size) ∧
        (form = .discarded ↔ byteAt bytes 0 = cls ∧ bytes.length = size ∧
          (crc16Good bytes = false ∨ ¬fields))
    judged (parseInit bytes) 0x81 9 (byteAt bytes 1 ≤ 1 ∧ byteAt bytes 2 ≤ 1) ∧
      judged (parseAck bytes) 0x82 5 True ∧ judged (parseNak bytes) 0x83 5 True ∧
      judged (parseCredit bytes) 0x84 7 True

/-- The module's answer to a requester read forms the record's completion, by the module's status and the
length the read asked for, and ends its tag's wait. An orphaned record's completion is dropped: the record
is free and its read credit returns, and as a read took no discard count, none is restored. -/
def Obligations.ReadAnswerFormsTheCompletion : Prop :=
  ∀ (bytes : List Byte) (s : State) (info : TagInfo) (i : Nat) (rec : ReadRecord) (addr : Addr)
    (length : Nat), s.calm → s.lower.state = .up → frameGood .lower bytes = true →
    frameSeq bytes = s.lower.expRx → isCompletion bytes = true →
    s.tag (completionTag bytes) = .outstanding info → info.purpose = .read → info.ref = .record i →
    info.detached = false → s.mode ≠ .safe → s.mode ≠ .halted → s.read? i = some rec →
    rec.kind = .read addr length →
    (rec.orphan = true →
      EffectOf (.transactionPacket .lower bytes) s fun u =>
        u.read? i = none ∧ u.formed = s.formed ∧
          u.credits = s.credits.giveBack s.mode.advertises { wh := 0, wd := 0, rd := 1 } ∧
          u.streams = s.streams ∧ s.TagEnded u (completionTag bytes) info ∧
          (∀ k, k ≠ i → u.read? k = s.read? k) ∧ u.groups = s.groups ∧ u.staging = s.staging) ∧
    (rec.orphan = false →
      EffectOf (.transactionPacket .lower bytes) s fun u =>
        let a := parseAnswer bytes
        u.read? i = some
          { rec with
            state := .done
              (if a.status = .ok ∧ a.data.length = length then
                { tag := rec.tag, status := .ok, data := a.data }
              else if a.status = .poisoned ∧ a.data.length = length then
                { tag := rec.tag, status := .poisoned, data := a.data }
              else { tag := rec.tag, status := .failed, data := [] }) } ∧
          u.formed = s.formed ++ [.record i] ∧
          u.tag (completionTag bytes) =
            (if s.lowerRetry.any fun p => !p.acked && p.body.tag? == some (completionTag bytes) then
              .spent info
            else .free) ∧
          (∀ k, k ≠ i → u.read? k = s.read? k) ∧ u.mode = s.mode ∧ u.faults = s.faults ∧
          u.groups = s.groups ∧ u.staging = s.staging ∧ u.marks = s.marks ∧ u.credits = s.credits ∧
          u.journal = s.journal ∧ u.ckpt = s.ckpt ∧ u.queue = s.queue ∧ u.streams = s.streams)

/-- A group fence completed OK makes its COMMITTING group COMMITTED, or fence-complete while some lower
serial is not yet committed; the durable mark rises to the count the fence recorded; another group changes
only from fence-complete COMMITTING to COMMITTED, and does so once no group of lower serial is uncommitted,
the serials lying within 2^31 of one another. Fence A completed OK moves its checkpoint to phase ANCHOR.
Fence B completed OK retires the covered groups: their records and entries are free, one WH and the units
of each entry return, tail, generation and slot move on, no checkpoint is in flight, and the front
group that waited for space is tried again against the new tail: it is reserved if it fits, or waits on if
not. That a front group that fits while another is being written only stops waiting for space is the model's
reading (log 39). -/
def Obligations.GroupFenceOkCommits : Prop :=
  (∀ (bytes : List Byte) (s : State) (info : TagInfo) (n k : Num32) (r : Nat) (g : Group), s.calm →
      s.lower.state = .up → frameGood .lower bytes = true → frameSeq bytes = s.lower.expRx →
      isCompletion bytes = true → s.tag (completionTag bytes) = .outstanding info →
      info.purpose = .groupFence → info.ref = .serial n → info.passCount = some k →
      info.detached = false → (s.mode = .operating ∨ s.mode = .holdup) →
      (parseAnswer bytes).status = .ok → s.group? r = some g → g.serial = some n →
      g.state = .committing →
      (∀ r' g', s.group? r' = some g' → g'.serial = some n → r' = r) →
      EffectOf (.transactionPacket .lower bytes) s fun u =>
        ((∀ r' g' m, s.group? r' = some g' → g'.serial = some m → earlier m n = true →
              g'.state = .committed ∨ g'.state = .applying ∨ g'.state = .applied) →
            u.group? r = some { g with state := .committed }) ∧
          ((∃ r' g' m, s.group? r' = some g' ∧ g'.serial = some m ∧ earlier m n = true ∧
              g'.state ≠ .committed ∧ g'.state ≠ .applying ∧ g'.state ≠ .applied) →
            u.group? r = some { g with fenceComplete := true }) ∧
          (∀ r' g', r' ≠ r → s.group? r' = some g' →
            u.group? r' = some g' ∨
              g'.state = .committing ∧ g'.fenceComplete = true ∧
                u.group? r' = some { g' with state := .committed }) ∧
          (∀ (base : Num32) (r' : Nat) (g' : Group) (m : Num32),
            (∀ q h k, s.group? q = some h → h.serial = some k → (k - base).toNat < 2 ^ 31) →
            let committed := fun h : Group =>
              h.state = .committed ∨ h.state = .applying ∨ h.state = .applied
            (∀ q h k, s.group? q = some h → h.serial = some k → earlier k n = true → committed h) →
            s.group? r' = some g' → g'.serial = some m → g'.state = .committing →
            g'.fenceComplete = true →
            (∀ q h k, s.group? q = some h → h.serial = some k → earlier k m = true →
              committed h ∨ q = r ∨ h.state = .committing ∧ h.fenceComplete = true) →
            u.group? r' = some { g' with state := .committed }) ∧
          u.marks =
            { s.marks with durable := if earlier s.marks.durable k then k else s.marks.durable } ∧
          u.mode = s.mode ∧ u.faults = s.faults ∧ u.staging = s.staging ∧ u.reads = s.reads ∧
          u.journal = s.journal ∧ u.ckpt = s.ckpt) ∧
  (∀ (bytes : List Byte) (s : State) (info : TagInfo) (k : Num32) (f : CkptFlight),
      s.Answered bytes info → info.purpose = .fenceA → info.passCount = some k →
      (s.mode = .operating ∨ s.mode = .holdup) → (parseAnswer bytes).status = .ok →
      s.ckpt.flight = some f →
      EffectOf (.transactionPacket .lower bytes) s fun u =>
        u.ckpt = { s.ckpt with flight := some { f with phase := .anchor } } ∧
          u.marks =
            { s.marks with durable := if earlier s.marks.durable k then k else s.marks.durable } ∧
          s.TagEnded u (completionTag bytes) info ∧ u.mode = s.mode ∧ u.faults = s.faults ∧
          u.groups = s.groups ∧ u.staging = s.staging ∧ u.journal = s.journal ∧
          u.credits = s.credits ∧ u.reads = s.reads) ∧
  ∀ (bytes : List Byte) (s : State) (info : TagInfo) (k gen : Num32) (f : CkptFlight)
    (covered : Nat → Group → Prop) (freed : Entry → Bool),
    s.Answered bytes info → info.purpose = .fenceB → info.passCount = some k →
    (s.mode = .operating ∨ s.mode = .holdup) → (parseAnswer bytes).status = .ok →
    s.ckpt.flight = some f → s.ckpt.generation = some gen →
    (∀ r g, covered r g ↔ s.group? r = some g ∧ ∃ n, g.serial = some n ∧
      earlier n f.firstSerial = false ∧ earlier f.lastSerial n = false) →
    (∀ e, freed e = true ↔ ∃ r i st g, e.kind = .member r i st ∧ covered r g) →
    EffectOf (.transactionPacket .lower bytes) s fun u =>
      let out := s.staging.entries.filter freed
      let units := (out.map fun e => (e.length + 15) / 16).sum
      u.ckpt =
          { tail := some f.newTail, generation := some (gen + 1#32)
            slot := some ((gen + 1#32).toNat % 2), flight := none } ∧
        u.staging =
          { entries := s.staging.entries.filter fun e => !freed e
            freeEntries := s.staging.freeEntries + out.length
            freeUnits := s.staging.freeUnits + units } ∧
        u.credits = s.credits.giveBack s.mode.advertises { wh := out.length, wd := units, rd := 0 } ∧
        u.marks =
          { s.marks with durable := if earlier s.marks.durable k then k else s.marks.durable } ∧
        s.TagEnded u (completionTag bytes) info ∧ u.mode = s.mode ∧ u.faults = s.faults ∧
        u.streams = s.streams ∧ u.serial = s.serial ∧ u.reads = s.reads ∧
        (∀ r g, covered r g → u.group? r = none) ∧
        (s.journal.spaceWait = false →
          u.journal = s.journal ∧
            ∀ r g, s.group? r = some g → ¬covered r g → u.group? r = some g) ∧
        ∀ (c : JournalConfig) (r : Nat) (rest : List Nat) (g : Group) (head : Pos),
          s.journal.spaceWait = true → s.config = some c → s.journal.queue = r :: rest →
          s.journal.head = some head → s.group? r = some g → ¬covered r g →
          let lines := 2 * g.count + 1
          let free := c.size / 64 - 2 - (head - f.newTail).toNat
          (∀ q h, q ≠ r → s.group? q = some h → ¬covered q h → u.group? q = some h) ∧
            (lines ≤ free → s.journal.current = none →
              u.group? r =
                  some { g with state := .journaling, start := some head, lines := some lines } ∧
                u.journal = { s.journal with
                  head := some (head + BitVec.ofNat 48 lines)
                  queue := rest
                  current := some { record := r, phase := .body 0 }
                  spaceWait := false }) ∧
            (lines ≤ free → s.journal.current ≠ none →
              u.group? r = some g ∧ u.journal = { s.journal with spaceWait := false }) ∧
            (free < lines → u.group? r = some g ∧ u.journal = s.journal)

/-- A fence completed with any status but OK halts the part in OPERATING and ends a hold-up in SAFE, with
a MEDIA_ERROR record that carries the group's or the checkpoint's serial; no mark and no group moves. -/
def Obligations.FenceErrorStopsThePart : Prop :=
  ∀ (bytes : List Byte) (s : State) (info : TagInfo) (serial : Option Num32), s.calm →
    s.lower.state = .up → frameGood .lower bytes = true → frameSeq bytes = s.lower.expRx →
    isCompletion bytes = true → s.tag (completionTag bytes) = .outstanding info →
    info.detached = false → (parseAnswer bytes).status ≠ .ok →
    ((∃ n, info.purpose = .groupFence ∧ info.ref = .serial n ∧ serial = some n) ∨
      (info.purpose = .fenceA ∨ info.purpose = .fenceB) ∧
        serial = s.ckpt.flight.map CkptFlight.lastSerial ∨
      (info.purpose = .flushFence ∨ info.purpose = .finalFence) ∧ serial = none) →
    (s.mode = .operating ∨ s.mode = .holdup) →
    After (.transactionPacket .lower bytes) s fun t =>
      (s.mode = .operating →
        t.mode = .halted ∧ t.lower.state = .down ∧ t.lower.heldDown = true ∧ t.holdTimer = none ∧
          ∀ i rec, t.read? i = some rec → ∃ c, rec.state = .done c) ∧
        (s.mode = .holdup → t.mode = .safe ∧ t.budgetTimer = none ∧ t.reads = s.reads) ∧
        t.safeLine = true ∧
        t.faults = pushFault s.faults { s.record .mediaError s.mode with serial := serial } ∧
        t.faultSeq = s.faultSeq + 1#16 ∧ t.alert = true ∧ t.marks = s.marks ∧ t.groups = s.groups ∧
        t.staging = s.staging ∧ t.journal = s.journal ∧ t.apply = s.apply ∧ t.ckpt = s.ckpt ∧
        t.recovery = s.recovery

/-! ### Training, sessions and retrain -/

/-- In TRAINING, with INIT sent, a good INIT of kind TRAIN brings the link UP in a new session; it is
answered unless it is itself a reply. The upper link's refresh timer starts; the lower link takes the
module's limits and its hold timer stops. That the accepted count is 0 is the model's reading (log 13). -/
def Obligations.TrainInitBringsTheLinkUp : Prop :=
  ∀ (bytes : List Byte) (reply : Bool) (limits : Limits) (s : State), s.calm →
    parseInit bytes = .good (.init .train reply limits) →
    (s.upper.state = .training → s.upper.initSent = true →
      exec (.init .upper bytes) s = .next (State.endEvent
        { s with
          sent := if reply then [] else [.unit .upper (.init .train true s.credits.limit)]
          upper := { s.upper with
            state := .up, nextTx := 0#12, expRx := 0#12, lastAcc := 4095#12, unacked := 0
            initRecv := true, trainTimer := false }
          credits := { s.credits with refresh := true } })) ∧
    (s.lower.state = .training → s.lower.initSent = true → (∀ p ∈ s.lowerRetry, p.resend = false) →
      exec (.init .lower bytes) s = .next (State.endEvent
        { s with
          sent := if reply then [] else [.unit .lower (.init .train true .zero)]
          lower := { s.lower with
            state := .up, nextTx := 0#12, expRx := 0#12, lastAcc := 4095#12, unacked := 0
            initRecv := true, trainTimer := false }
          lowerCredits := { limit := limits, consumed := .zero }
          holdTimer := none }))

/-- The re-send: the packets marked for re-send go out in buffer order, each with the next sequence while the
module's credit left by the charges before it covers its own, up to the first that lacks credit; a packet
sent takes its sequence in the buffer and loses its mark, and is charged; nothing in the buffer changes
place. At the lower link's entry into UP out of TRAINING it begins from sequence 0, the INIT's limits and
nothing consumed; in UP a CREDIT unit's limits let it go on from where it stood. SAFE sends none of it. -/
def Obligations.ResendFollowsTheBufferOrder : Prop :=
  (∀ (bytes : List Byte) (reply : Bool) (limits : Limits) (s : State), s.calm →
    parseInit bytes = .good (.init .train reply limits) → s.lower.state = .training →
    s.lower.initSent = true →
    let answer := if reply then [] else [Sent.unit .lower (.init .train true .zero)]
    EffectOf (.init .lower bytes) s fun u =>
      u = { s with
        sent := u.sent, lower := u.lower, lowerRetry := u.lowerRetry, lowerCredits := u.lowerCredits
        holdTimer := none } ∧
        u.lower.state = .up ∧
        (s.mode ≠ .safe → s.Resends u limits .zero 0#12 answer) ∧
        (s.mode = .safe →
          u.sent = answer ∧ u.lowerRetry = s.lowerRetry ∧
            u.lowerCredits = { limit := limits, consumed := .zero })) ∧
  ∀ (bytes : List Byte) (limits : Limits) (s : State), s.calm →
    parseCredit bytes = .good (.credit limits) → s.lower.state = .up →
    (s.mode ≠ .safe →
      EffectOf (.credit .lower bytes) s fun u =>
        u = { s with
          sent := u.sent, lowerRetry := u.lowerRetry, lowerCredits := u.lowerCredits
          lower := { s.lower with nextTx := u.lower.nextTx, replayTimer := u.lower.replayTimer } } ∧
          s.Resends u limits s.lowerCredits.consumed s.lower.nextTx []) ∧
    (s.mode = .safe →
      exec (.credit .lower bytes) s = .next (State.endEvent
        { s with sent := [], lowerCredits := { s.lowerCredits with limit := limits } }))

/-- The partner's restart (an INIT of kind TRAIN, not a reply) in UP or RETRAIN, and the training timer in
RETRAIN, end the lower link's session: the writes, and the reads and fences still owed an answer, stay in
the buffer marked for re-send; a SPENT tag becomes FREE; the hold timer runs; the module's credits and the
claims are gone. That the accepted count is 0 is the model's reading (log 13). -/
def Obligations.LowerSessionEndKeepsWhatIsOwed : Prop :=
  ∀ (c : Instr) (s : State), s.calm →
    ((∃ bytes limits, c = .init .lower bytes ∧
        parseInit bytes = .good (.init .train false limits) ∧
        (s.lower.state = .up ∨ s.lower.state = .retrain)) ∨
      c = .trainingTimerExpiry .lower ∧ s.lower.trainTimer = true ∧ s.lower.state = .retrain) →
    EffectOf c s fun u =>
      let kept := s.lowerRetry.filter fun p => p.body.tag?.all fun t => (s.tag t).isOutstanding
      u =
        { s.recorded { s.record .lowerLinkDown s.mode with
            link := some .lower, count := some kept.length } with
          sent := [.unit .lower (.init .train false .zero)]
          lower := s.lower.restarted
          lowerRetry := kept.map fun p => { p with acked := false, resend := true }
          tags := u.tags
          lowerCredits := { limit := .zero, consumed := .zero }
          claims := .none
          holdTimer := if s.holdTimer.isSome then s.holdTimer else some s.params.holdTime } ∧
        u.tags.length = s.tags.length ∧
        ∀ t, u.tag t = match s.tag t with
          | .spent _ => .free
          | other => other

/-- The partner's retrain in UP: its INIT is answered with RETRAIN, reply set, a RETRAIN record carries the
number of unacknowledged packets of the buffer, and the link is UP again with all of them replayed. That it
returns to UP in this event is the model's reading (log 12), as is the accepted count kept with the ack timer
stopped (log 13). The matching INIT in RETRAIN, answered unless it is a reply, ends a retrain so. On the
lower link both take the module's limits, and SAFE replays nothing. The INITs a port ignores change nothing;
on the lower link in UP and RETRAIN an ignored INIT still replaces the module's limits, which is the model's
reading of R157 with R181 (log 11). -/
def Obligations.OtherInitsRetrainOrAreIgnored : Prop :=
  (∀ (bytes : List Byte) (limits : Limits) (s : State), s.calm →
      parseInit bytes = .good (.init .retrain false limits) →
      let completions := s.upperRetry.map fun p => Sent.completion p.seq p.completion
      let unacked := s.lowerRetry.filter fun p => !p.acked
      let requests := if s.mode = .safe then [] else unacked.map fun p => Sent.request p.seq p.body
      let lowerRecord : FaultRecord :=
        { s.record .retrain s.mode with link := some .lower, count := some unacked.length }
      (s.upper.state = .up →
        exec (.init .upper bytes) s = .next (State.endEvent
          { s.recorded { s.record .retrain s.mode with
              link := some .upper, count := some s.upperRetry.length } with
            sent := Sent.unit .upper (.init .retrain true s.credits.limit) :: completions
            upper := { s.upper with
              nakOut := false, ackTimer := false, replayCount := 0, initSent := true
              initRecv := true, trainTimer := false, replayTimer := !s.upperRetry.isEmpty }
            credits := { s.credits with refresh := true } })) ∧
      (s.lower.state = .up → (∀ p ∈ s.lowerRetry, p.resend = false) →
        exec (.init .lower bytes) s = .next (State.endEvent
          { s.recorded lowerRecord with
            sent := Sent.unit .lower (.init .retrain true .zero) :: requests
            lower := { s.lower with
              nakOut := false, ackTimer := false, replayCount := 0, initSent := true
              initRecv := true, trainTimer := false, replayTimer := !requests.isEmpty }
            lowerCredits := { s.lowerCredits with limit := limits }
            holdTimer := none })) ∧
      (s.lower.state = .up →
        EffectOf (.init .lower bytes) s fun u =>
          u.lower.state = .up ∧ u.faults = pushFault s.faults lowerRecord ∧
            u.lowerRetry.map LowerPacket.body = s.lowerRetry.map LowerPacket.body)) ∧
  (∀ (bytes : List Byte) (reply : Bool) (limits : Limits) (s : State), s.calm →
      parseInit bytes = .good (.init .retrain reply limits) →
      let completions := s.upperRetry.map fun p => Sent.completion p.seq p.completion
      let requests := if s.mode = .safe then [] else
        (s.lowerRetry.filter fun p => !p.acked).map fun p => Sent.request p.seq p.body
      (s.upper.state = .retrain → s.upper.initSent = true →
        exec (.init .upper bytes) s = .next (State.endEvent
          { s with
            sent := (if reply then [] else [.unit .upper (.init .retrain true s.credits.limit)]) ++
              completions
            upper := { s.upper with
              state := .up, initRecv := true, trainTimer := false
              replayTimer := s.upper.replayTimer || !completions.isEmpty }
            credits := { s.credits with refresh := true } })) ∧
      (s.lower.state = .retrain → s.lower.initSent = true →
        (∀ p ∈ s.lowerRetry, p.resend = false) →
        exec (.init .lower bytes) s = .next (State.endEvent
          { s with
            sent := (if reply then [] else [.unit .lower (.init .retrain true .zero)]) ++ requests
            lower := { s.lower with
              state := .up, initRecv := true, trainTimer := false
              replayTimer := s.lower.replayTimer || !requests.isEmpty }
            lowerCredits := { s.lowerCredits with limit := limits }
            holdTimer := none }))) ∧
  (∀ (bytes : List Byte) (kind : TrainKind) (reply : Bool) (limits : Limits) (s : State), s.calm →
      parseInit bytes = .good (.init kind reply limits) →
      (∀ l, (s.port l).state = .training → kind = .retrain →
        exec (.init l bytes) s = .next (State.endEvent { s with sent := [] })) ∧
      ((s.upper.state = .up ∨ s.upper.state = .retrain ∧ kind = .train) → reply = true →
        exec (.init .upper bytes) s = .next (State.endEvent { s with sent := [] })) ∧
      ((s.lower.state = .up ∧ (∀ p ∈ s.lowerRetry, p.resend = false) ∨
          s.lower.state = .retrain ∧ kind = .train) → reply = true →
        exec (.init .lower bytes) s = .next (State.endEvent
          { s with sent := [], lowerCredits := { s.lowerCredits with limit := limits } })))

/-! ### Acknowledgement and replay -/

/-- A valid ACK on the upper link: the packets up to the one it names leave the retry buffer, the replay
count returns to 0, and the replay timer runs on only while packets remain. On either link an ACK in
another state than UP and RETRAIN, or that names no unacknowledged packet, changes nothing. -/
def Obligations.AckFreesUpperPackets : Prop :=
  (∀ (bytes : List Byte) (n : Seq) (acked rest : List UpperPacket) (p : UpperPacket) (s : State),
      s.calm → parseAck bytes = .good (.ack n) → (s.upper.state = .up ∨ s.upper.state = .retrain) →
      s.upperRetry = acked ++ p :: rest → p.seq = n → (∀ q ∈ acked, q.seq ≠ n) →
      (∀ q ∈ s.upperRetry.head?, q.seq ≠ n + 1#12) →
      exec (.ack .upper bytes) s = .next (State.endEvent
        { s with
          sent := []
          upperRetry := rest
          upper := { s.upper with replayCount := 0, replayTimer := !rest.isEmpty } })) ∧
  (∀ (l : Link) (bytes : List Byte) (n : Seq) (s : State), s.calm → parseAck bytes = .good (.ack n) →
      ((s.port l).state ≠ .up ∧ (s.port l).state ≠ .retrain ∨ n ∉ s.unackedSeqs l) →
      exec (.ack l bytes) s = .next (State.endEvent { s with sent := [] }))

/-- A valid ACK on the lower link: the packets up to the one it names become acknowledged, and those owed
no answer leave the buffer; SAFE does not start the replay timer. -/
def Obligations.AckOnTheLowerLinkKeepsOwedPackets : Prop :=
  ∀ (bytes : List Byte) (n : Seq) (before after : List LowerPacket) (p : LowerPacket) (s : State),
    s.calm → parseAck bytes = .good (.ack n) → (s.lower.state = .up ∨ s.lower.state = .retrain) →
    s.lowerRetry = before ++ p :: after → p.live = true → p.seq = n →
    (∀ q ∈ before, q.live = true → q.seq ≠ n) →
    (∀ q ∈ (s.lowerRetry.filter LowerPacket.live).head?, q.seq ≠ n + 1#12) →
    EffectOf (.ack .lower bytes) s fun u =>
      u.lowerRetry =
          ((before ++ [p]).map (fun q => if q.live then { q with acked := true } else q) ++
            after).filter (fun q => !q.acked || q.body.tag?.any fun t => (s.tag t).isOutstanding) ∧
        u.lower =
          { s.lower with
            replayCount := 0
            replayTimer := after.any LowerPacket.live && s.mode != .safe } ∧
        u =
          { s with
            sent := [], lowerRetry := u.lowerRetry, lower := u.lower, tags := u.tags } ∧
        ∀ t, u.tag t = match s.tag t with
          | .spent i =>
            if u.lowerRetry.any fun q => q.body.tag? == some t then .spent i else .free
          | other => other

/-- What starts a replay in UP with packets unacknowledged: a NAK of the sequence before the oldest, or the
replay timer's expiry. Below three consecutive replays every unacknowledged packet goes out again with its
sequence and the replay count rises. After three the link enters RETRAIN: sequences and buffer kept, no
timer but the training timer, an INIT of kind RETRAIN sent, and a record of the unacknowledged packets of
the buffer; that the accepted count is kept with the ack timer stopped is the model's reading (log 13). A
NAK that acknowledges packets first has the effects of an ACK, the replay timer's among them (log 40); in UP
what it leaves is replayed as the first of a new run, in RETRAIN nothing is. -/
def Obligations.ReplaysAreCountedAndEndInRetrain : Prop :=
  (∀ (c : Instr) (l : Link) (oldest : Seq) (rest : List Seq) (s : State), s.calm →
      (s.port l).state = .up → s.unackedSeqs l = oldest :: rest → (l = .lower → s.mode ≠ .safe) →
      ((∃ bytes n, c = .nak l bytes ∧ parseNak bytes = .good (.nak n) ∧ n + 1#12 = oldest) ∨
        c = .replayTimerExpiry l ∧ (s.port l).replayTimer = true) →
      (s.port l).replayCount < 3 →
      exec c s = .next (State.endEvent (State.setPort
        { s with
          sent := match l with
            | .upper => s.upperRetry.map fun p => Sent.completion p.seq p.completion
            | .lower =>
              (s.lowerRetry.filter fun p => !p.acked && !p.resend).map
                fun p => Sent.request p.seq p.body }
        l { s.port l with replayCount := (s.port l).replayCount + 1, replayTimer := true }))) ∧
  (∀ (c : Instr) (l : Link) (oldest : Seq) (rest : List Seq) (s : State), s.calm →
      (s.port l).state = .up → s.unackedSeqs l = oldest :: rest → (l = .lower → s.mode ≠ .safe) →
      ((∃ bytes n, c = .nak l bytes ∧ parseNak bytes = .good (.nak n) ∧ n + 1#12 = oldest) ∨
        c = .replayTimerExpiry l ∧ (s.port l).replayTimer = true) →
      3 ≤ (s.port l).replayCount →
      EffectOf c s fun u =>
        u.port l =
            { s.port l with
              state := .retrain, nakOut := false, replayTimer := false, ackTimer := false
              replayCount := 0, initSent := true, initRecv := false, trainTimer := true } ∧
          (∀ k, k ≠ l → u.port k = s.port k) ∧
          u.sent =
            [.unit l (.init .retrain false (if l = .upper then s.credits.limit else .zero))] ∧
          u.faults = pushFault s.faults
            { s.record .retrain s.mode with
              link := some l
              count := some (match l with
                | .upper => s.upperRetry.length
                | .lower => s.lowerRetry.countP fun p => !p.acked) } ∧
          u.upperRetry = s.upperRetry ∧ u.lowerRetry = s.lowerRetry ∧ u.tags = s.tags ∧
          u.credits.refresh = (if l = .upper then false else s.credits.refresh) ∧ u.mode = s.mode) ∧
  (∀ (bytes : List Byte) (n : Seq) (acked rest : List UpperPacket) (p : UpperPacket) (s : State),
      s.calm → parseNak bytes = .good (.nak n) → (s.upper.state = .up ∨ s.upper.state = .retrain) →
      s.upperRetry = acked ++ p :: rest → p.seq = n → (∀ q ∈ acked, q.seq ≠ n) →
      (∀ q ∈ s.upperRetry.head?, q.seq ≠ n + 1#12) →
      exec (.nak .upper bytes) s = .next (State.endEvent
        { s with
          sent :=
            if s.upper.state = .up then rest.map fun q => Sent.completion q.seq q.completion else []
          upperRetry := rest
          upper := { s.upper with
            replayCount := if s.upper.state = .up ∧ rest ≠ [] then 1 else 0
            replayTimer := !rest.isEmpty } })) ∧
  ∀ (bytes : List Byte) (n : Seq) (before after : List LowerPacket) (p : LowerPacket) (s : State),
    s.calm → parseNak bytes = .good (.nak n) → (s.lower.state = .up ∨ s.lower.state = .retrain) →
    s.lowerRetry = before ++ p :: after → p.live = true → p.seq = n →
    (∀ q ∈ before, q.live = true → q.seq ≠ n) →
    (∀ q ∈ (s.lowerRetry.filter LowerPacket.live).head?, q.seq ≠ n + 1#12) →
    EffectOf (.nak .lower bytes) s fun u =>
      let left := if s.mode = .safe then [] else after.filter LowerPacket.live
      u.lowerRetry =
          ((before ++ [p]).map (fun q => if q.live then { q with acked := true } else q) ++
            after).filter (fun q => !q.acked || q.body.tag?.any fun t => (s.tag t).isOutstanding) ∧
        u =
          { s with
            sent :=
              if s.lower.state = .up then left.map fun q => Sent.request q.seq q.body else []
            lowerRetry := u.lowerRetry
            lower := { s.lower with
              replayCount := if s.lower.state = .up ∧ left ≠ [] then 1 else 0
              replayTimer := !left.isEmpty }
            tags := u.tags }

/-- The ack timer's expiry sends the ACK that is owed; the training timer's expiry in TRAINING starts
training afresh, on the upper link with its credit state renewed, CREDIT due as it was (the model's reading,
log 16); that the expiry of a stopped timer does nothing is the model's choice (log 2). -/
def Obligations.PortTimersExpire : Prop :=
  ∀ (l : Link) (s : State), s.calm →
    ((s.port l).ackTimer = true →
      exec (.ackTimerExpiry l) s = .next (State.endEvent
        (State.setPort { s with sent := [.unit l (.ack (s.port l).lastAcc)] } l
          { s.port l with unacked := 0, ackTimer := false }))) ∧
    ((s.port l).trainTimer = true → (s.port l).state = .training →
      EffectOf (.trainingTimerExpiry l) s fun u =>
        u.port l = { s.port l with initSent := true, initRecv := false } ∧
          u.sent =
            [.unit l (.init .train false (if l = .upper then u.credits.limit else .zero))] ∧
          u.credits =
            (if l = .upper then
              { s.credits with
                consumed := .zero
                limit :=
                  if s.mode.advertises then
                    Limits.raise .zero
                      (s.credits.pool.add (unconsumed s.credits.limit s.credits.consumed))
                  else .zero
                pool :=
                  if s.mode.advertises then .zero
                  else s.credits.pool.add (unconsumed s.credits.limit s.credits.consumed) }
            else s.credits) ∧
          (∀ k, k ≠ l → u.port k = s.port k) ∧ u.work = { s.work with
            upper := u.upper, lower := u.lower }) ∧
    ((s.port l).ackTimer = false →
      exec (.ackTimerExpiry l) s = .next (State.endEvent { s with sent := [] })) ∧
    ((s.port l).trainTimer = false →
      exec (.trainingTimerExpiry l) s = .next (State.endEvent { s with sent := [] })) ∧
    ((s.port l).replayTimer = false →
      exec (.replayTimerExpiry l) s = .next (State.endEvent { s with sent := [] }))

/-! ### Credits -/

/-- A CREDIT unit replaces the module's limits on the lower link in UP and RETRAIN, and is ignored on the
upper link and in the other states. In UP with packets marked for re-send the re-send also goes on, as
`Obligations.ResendFollowsTheBufferOrder` has it, but not in SAFE. -/
def Obligations.CreditUnitReplacesTheModuleLimits : Prop :=
  ∀ (bytes : List Byte) (limits : Limits) (s : State), s.calm →
    parseCredit bytes = .good (.credit limits) →
    exec (.credit .upper bytes) s = .next (State.endEvent { s with sent := [] }) ∧
    ((s.lower.state = .up ∧ ((∀ p ∈ s.lowerRetry, p.resend = false) ∨ s.mode = .safe) ∨
        s.lower.state = .retrain) →
      exec (.credit .lower bytes) s = .next (State.endEvent
        { s with sent := [], lowerCredits := { s.lowerCredits with limit := limits } })) ∧
    ((s.lower.state = .training ∨ s.lower.state = .down) →
      exec (.credit .lower bytes) s = .next (State.endEvent { s with sent := [] }))

/-- A due CREDIT unit, and the refresh timer's expiry, in UP: the unit carries the current limits, CREDIT
due is cleared and the refresh timer restarts. With the upper link not UP neither has an effect. -/
def Obligations.CreditUnitIsSentWithTheCurrentLimits : Prop :=
  ∀ (c : Instr) (s : State), s.calm →
    (c = .creditUnitSent ∧ s.credits.due = true ∨
      c = .refreshTimerExpiry ∧ s.credits.refresh = true) →
    (s.upper.state = .up →
      exec c s = .next (State.endEvent
        { s with
          sent := [.unit .upper (.credit s.credits.limit)]
          credits := { s.credits with due := false, refresh := true } })) ∧
    (s.upper.state ≠ .up → exec c s = .next (State.endEvent { s with sent := [] }))

/-! ### The hold timer and the budget timer -/

/-- The lower hold timer's expiry, by mode: it only stops in UNCONFIGURED, SAFE and HALTED; it ends a
hold-up in SAFE; it halts the part in RECOVERING and OPERATING, with the lower link held DOWN and every
read record DONE. That the lower port keeps its sequence fields and counts in HALTED is the model's reading
(log 14); that a request still queued at the end of the hold-up is discarded in this event is the model's
choice of R20's moment (log 37). -/
def Obligations.HoldTimerExpiryActsByMode : Prop :=
  ∀ s : State, s.calm → s.holdTimer.isSome = true →
    let r : FaultRecord := { s.record .lowerLoss s.mode with link := some .lower }
    ((s.mode = .unconfigured ∨ s.mode = .safe ∨ s.mode = .halted) →
      exec .lowerHoldTimerExpiry s = .next
        { s with sent := [], holdTimer := none, claims := .none }) ∧
    (s.mode = .holdup →
      exec .lowerHoldTimerExpiry s = .next
        { s.queueDiscarded.recorded r with
          sent := [], holdTimer := none, mode := .safe, safeLine := true, budgetTimer := none
          lower := { s.lower with replayTimer := false }, claims := .none }) ∧
    ((s.mode = .recovering ∨ s.mode = .operating) →
      After .lowerHoldTimerExpiry s fun t =>
        t.mode = .halted ∧ t.safeLine = true ∧ t.holdTimer = none ∧
          t.lower =
            { s.lower with
              state := .down, heldDown := true, trainTimer := false, replayTimer := false
              ackTimer := false, nakOut := false } ∧
          t.faults = pushFault s.faults r ∧ t.alert = true ∧
          (∀ i rec, t.read? i = some rec → ∃ c, rec.state = .done c) ∧
          t.groups = s.groups ∧ t.staging = s.staging ∧ t.journal = s.journal ∧ t.apply = s.apply ∧
          t.ckpt = s.ckpt ∧ t.recovery = s.recovery ∧ t.lowerRetry = s.lowerRetry ∧
          t.marks = s.marks ∧ t.credits.pool = .zero)

/-- The budget timer's expiry in HOLDUP records the number of the groups not yet committed and the lowest
serial among them, and takes the part to SAFE, where nothing is granted; all other work stays as it stood.
That a request still queued is discarded in this event is the model's choice of R20's moment (log 37). The
record's serial is the first of the model's sorted list, of which it is said that it holds these groups and
no other, and that no group of it has a lower serial, the serials lying within 2^31 of one another. -/
def Obligations.BudgetExpiryRecordsAndEntersSafe : Prop :=
  ∀ s : State, s.calm → s.budgetTimer.isSome = true → s.mode = .holdup →
    exec .budgetTimerExpiry s = .next
        { s.queueDiscarded.recorded { s.record .holdupExpired .holdup with
            count := some s.uncommittedGroups.length
            serial := s.uncommittedGroups.head?.bind fun p => p.2.serial } with
          sent := [], mode := .safe, safeLine := true, budgetTimer := none
          lower := { s.lower with replayTimer := false }, claims := .none } ∧
      (∀ r g, (r, g) ∈ s.uncommittedGroups ↔
        s.group? r = some g ∧ g.serial.isSome = true ∧
          (g.state = .closed ∨ g.state = .journaling ∨ g.state = .committing)) ∧
      (∀ (base : Num32) (r : Nat) (g : Group) (n : Num32), s.uncommittedGroups.head? = some (r, g) →
        g.serial = some n →
        (∀ q h m, s.group? q = some h → h.serial = some m → (m - base).toNat < 2 ^ 31) →
        ∀ q h m, (q, h) ∈ s.uncommittedGroups → h.serial = some m → earlier m n = false) ∧
      ∀ src : Source, src.permitted .safe = false

/-! ### The management port -/

/-- A command of the wrong form, or with a code the table lacks, is answered BAD_ARGUMENT and changes
nothing else: the declared length must equal the received count, and that the expected count. -/
def Obligations.BadFormIsRefused : Prop :=
  ∀ (s : State) (body : List Byte), s.calm →
    let refused := Host.Outcome.next (σ := State) (φ := Fault) (ρ := Refusal)
      (State.endEvent { s with sent := [], response := some { status := .badArgument, data := [] } })
    let bad := fun expected : Nat =>
      body = [] ∨ (body.headD 0#8).toNat ≠ body.length - 1 ∨ body.length - 1 ≠ expected
    (bad 0 → exec (.identify body) s = refused ∧ exec (.readStatus body) s = refused ∧
      exec (.readPendingEntry body) s = refused ∧ exec (.readFault body) s = refused) ∧
    (bad 15 → exec (.setJournal body) s = refused) ∧
    (bad 5 → exec (.setParameters body) s = refused ∧ exec (.start body) s = refused) ∧
    (bad 3 → exec (.commitEntry body) s = refused) ∧
    (bad 1 → exec (.readEntry body) s = refused) ∧
    ∀ code, exec (.unknownCommandCode code body) s = refused

/-- IDENTIFY answers DONE with the part's fixed description, in every mode. -/
def Obligations.IdentifyAnswersTheFixedDescription : Prop :=
  ∀ s : State, s.calm →
    exec (.identify [0#8]) s = .next (State.endEvent
      { s with
        sent := []
        response := some
          { status := .done
            data := [0x40#8, 0x21#8, 1#8, 8#8, 16#8, 128#8, 0#8, 1#8, 32#8, 32#8, 16#8, 32#8] } })

/-- READ STATUS answers DONE with 189 bytes, each at its offset, and changes nothing else: the mode, the
link states and the lower link held DOWN, the staging entries and data units in use and the entries of each
kind and state, the sixteen group records, the eight streams, the journal with its unset flags and the
space-wait flag, the read records and tags in use, the abandoned count, and the fault list. The bits and bytes
the layout does not name are 0, which is the model's choice (log 44). -/
def Obligations.ReadStatusReportsTheState : Prop :=
  ∀ s : State, s.calm → s.sized →
    ∃ data : List Byte,
      exec (.readStatus [0#8]) s = .next (State.endEvent
        { s with sent := [], response := some { status := .done, data := data } }) ∧
      data.length = 189 ∧
      let byte := fun n : Nat => some (BitVec.ofNat 8 n)
      let link := fun st : LinkState => match st with
        | .down => 0
        | .training => 1
        | .up => 2
        | .retrain => 3
      let flag := fun (b : Bool) (weight : Nat) => if b then weight else 0
      let entries := fun p : Entry → Bool => byte (s.staging.entries.countP p)
      (data[0]? = some (match s.mode with
        | .unconfigured => 0#8
        | .recovering => 1#8
        | .operating => 2#8
        | .holdup => 3#8
        | .safe => 4#8
        | .halted => 5#8) ∧
      data[1]? = byte (link s.upper.state + 4 * link s.lower.state + flag s.lower.heldDown 16)) ∧
      (data[2]? = byte s.staging.entries.length ∧
      fieldAt data 3 2 =
        (s.staging.entries.map fun e => (e.length + 15) / 16).sum % 2 ^ 16 ∧
      data[5]? = entries (fun e => e.kind == .pass .waiting) ∧
      data[6]? = entries (fun e => e.kind == .pass .abandoned) ∧
      data[7]? = entries (fun e => match e.kind with
        | .member _ _ .held => true
        | _ => false) ∧
      data[8]? = entries (fun e => match e.kind with
        | .member _ _ .applied => true
        | _ => false)) ∧
      (∀ r, r < 16 →
        data[9 + 8 * r]? = some (match s.group? r with
          | none => 0#8
          | some g => match g.state with
            | .opened => 1#8
            | .closed => 2#8
            | .journaling => 3#8
            | .committing => 4#8
            | .committed => 5#8
            | .applying => 6#8
            | .applied => 7#8) ∧
        (s.group? r = none → ∀ k, 1 ≤ k → k < 8 → data[9 + 8 * r + k]? = some 0#8) ∧
        ∀ g, s.group? r = some g →
          data[9 + 8 * r + 1]? = byte g.stream ∧ data[9 + 8 * r + 2]? = byte g.count ∧
            data[9 + 8 * r + 3]? = byte (causeCode g.fault) ∧
            fieldAt data (9 + 8 * r + 4) 4 = (g.serial.getD 0#32).toNat) ∧
      (∀ i, i < 8 →
        data[137 + 3 * i]? = byte (match (s.stream i).group with
          | none => 0
          | some r => 128 + r) ∧
        data[137 + 3 * i + 1]? = byte (s.stream i).discards ∧
        data[137 + 3 * i + 2]? = byte (causeCode (s.stream i).lastCause)) ∧
      (fieldAt data 161 6 = (s.journal.head.getD 0#48).toNat ∧
      fieldAt data 167 6 = (s.ckpt.tail.getD 0#48).toNat ∧
      fieldAt data 173 4 = (s.ckpt.generation.getD 0#32).toNat ∧
      data[177]? = byte (s.ckpt.slot.getD 0) ∧
      fieldAt data 178 4 = (s.serial.getD 0#32).toNat ∧
      data[182]? = byte (flag s.journal.head.isNone 1 + flag s.ckpt.tail.isNone 2 +
        flag s.ckpt.generation.isNone 4 + flag s.serial.isNone 8 + flag s.journal.spaceWait 16)) ∧
      data[183]? = byte (s.reads.countP Option.isSome) ∧
      data[184]? = byte (s.tags.countP fun t => t != .free) ∧
      data[185]? = byte s.hold.abandoned ∧
      data[186]? = byte s.faults.length ∧
      fieldAt data 187 2 = match s.faults with
        | [] => 0
        | r :: _ => r.seq.toNat

/-- SET JOURNAL, judged in order: the mode, the values, the overlap with a valid window; else the three
values take effect. -/
def Obligations.SetJournalIsJudgedInOrder : Prop :=
  ∀ (s : State) (params : List Byte), s.calm → params.length = 15 →
    let c := journalParams params
    let answer := fun status : RespStatus => Host.Outcome.next (φ := Fault) (ρ := Refusal)
      (State.endEvent { s with sent := [], response := some { status := status, data := [] } })
    let good :=
      (∃ k, k ≤ 8 ∧ c.size = 2 ^ (16 + k)) ∧ c.base.toNat % c.size = 0 ∧ c.moduleSize ≠ 0 ∧
        c.moduleSize % 4096 = 0 ∧ c.moduleSize ≤ 2 ^ 40 ∧ c.base.toNat + c.size ≤ c.moduleSize
    let overlap :=
      ∃ w ∈ s.windows, w.valid = true ∧ ∃ a,
        c.base.toNat ≤ a ∧ a < c.base.toNat + c.size ∧ w.base.toNat ≤ a ∧
          a < w.base.toNat + w.pages * 4096
    (s.mode ≠ .unconfigured → exec (.setJournal (15#8 :: params)) s = answer .badState) ∧
    (s.mode = .unconfigured → ¬good →
      exec (.setJournal (15#8 :: params)) s = answer .badArgument) ∧
    (s.mode = .unconfigured → good → overlap →
      exec (.setJournal (15#8 :: params)) s = answer .conflict) ∧
    (s.mode = .unconfigured → good → ¬overlap →
      exec (.setJournal (15#8 :: params)) s = .next (State.endEvent
        { s with
          sent := [], config := some c, response := some { status := .done, data := [] } }))

/-- SET PARAMETERS, judged in order: the mode, the ranges; else the four values replace the set. -/
def Obligations.SetParametersIsJudgedInOrder : Prop :=
  ∀ (s : State) (batch holdLow holdHigh budget policy : Byte), s.calm →
    let body := [5#8, batch, holdLow, holdHigh, budget, policy]
    let hold := holdLow.toNat + 256 * holdHigh.toNat
    let answer := fun status : RespStatus => Host.Outcome.next (φ := Fault) (ρ := Refusal)
      (State.endEvent { s with sent := [], response := some { status := status, data := [] } })
    let good :=
      1 ≤ batch.toNat ∧ batch.toNat ≤ 8 ∧ 1 ≤ hold ∧ hold ≤ 1000 ∧ 1 ≤ budget.toNat ∧
        policy.toNat ≤ 1
    (s.mode ≠ .unconfigured → exec (.setParameters body) s = answer .badState) ∧
    (s.mode = .unconfigured → ¬good → exec (.setParameters body) s = answer .badArgument) ∧
    (s.mode = .unconfigured → good →
      exec (.setParameters body) s = .next (State.endEvent
        { s with
          sent := []
          params :=
            { batch := batch.toNat, holdTime := hold, budget := budget.toNat
              default := if policy.toNat = 0 then .pass else .deny }
          response := some { status := .done, data := [] } }))

/-- WRITE PENDING ENTRY judges only the bytes received after the declared length, and replaces the pending
entry whole. -/
def Obligations.WritePendingEntryReplacesTheEntry : Prop :=
  ∀ (s : State) (declared index : Byte) (entry : List Byte), s.calm →
    (∀ body, body = [] ∨ body = [declared] →
      exec (.writePendingEntry body) s = .next (State.endEvent
        { s with sent := [], response := some { status := .badArgument, data := [] } })) ∧
    exec (.writePendingEntry (declared :: index :: entry)) s = .next (State.endEvent
      { s with
        sent := []
        pendingEntry := some
          { index := index, bytes := entry.take 10
            check := BitVec.ofNat 8 ((entry.take 10).map BitVec.toNat).sum
            short := decide (entry.length < 10), long := decide (10 < entry.length)
            accepted := false }
        response := some { status := .done, data := [] } })

/-- READ PENDING ENTRY answers EMPTY, or the echo triple and the stored bytes; READ ENTRY refuses an index
above 15, and else answers the ten bytes that decode to the entry. Both change nothing else. -/
def Obligations.EntriesAreReadBack : Prop :=
  ∀ s : State, s.calm →
    let answer := fun (status : RespStatus) (data : List Byte) =>
      Host.Outcome.next (φ := Fault) (ρ := Refusal)
        (State.endEvent { s with sent := [], response := some { status := status, data := data } })
    (s.pendingEntry = none → exec (.readPendingEntry [0#8]) s = answer .empty []) ∧
    (∀ e, s.pendingEntry = some e →
      exec (.readPendingEntry [0#8]) s = answer .done
        (e.index :: e.check ::
          BitVec.ofNat 8 ((if e.short then 1 else 0) + (if e.long then 2 else 0) +
            if e.accepted then 4 else 0) :: e.bytes)) ∧
    ∀ index : Byte,
      (15 < index.toNat → exec (.readEntry [1#8, index]) s = answer .badArgument []) ∧
      ∀ w, s.windows[index.toNat]? = some w → index.toNat ≤ 15 → w.pages < 2 ^ 32 →
        ∃ data, exec (.readEntry [1#8, index]) s = answer .done data ∧ data.length = 10 ∧
          entryValid data = w.valid ∧ entryBase data = w.base ∧ entryPages data = w.pages ∧
          entryPolicy data = some w.policy ∧ entryUngrouped data = some w.ungrouped

/-- COMMIT ENTRY, judged in order. First the mode, the pending entry, the echo triple, SHORT, the index and
the fields of a valid entry; then, for an entry that passes these, CONFLICT for a byte shared with another
valid entry or the journal region and BUSY for a live member in the old or the new range; else the entry is
in force and the pending entry ACCEPTED. An entry whose valid field is clear removes the window. -/
def Obligations.CommitEntryIsJudgedInOrder : Prop :=
  (∀ (s : State) (index check flags : Byte), s.calm →
      let body := [3#8, index, check, flags]
      let answer := fun status : RespStatus => Host.Outcome.next (φ := Fault) (ρ := Refusal)
        (State.endEvent { s with sent := [], response := some { status := status, data := [] } })
      ((s.mode = .halted ∨ s.mode = .safe) → exec (.commitEntry body) s = answer .badState) ∧
      (s.mode ≠ .halted → s.mode ≠ .safe →
        (s.pendingEntry = none → exec (.commitEntry body) s = answer .empty) ∧
        ∀ e, s.pendingEntry = some e →
          let triple := index = e.index ∧ check = e.check ∧
            flags = BitVec.ofNat 8 ((if e.short then 1 else 0) + (if e.long then 2 else 0) +
              if e.accepted then 4 else 0)
          let limit := match s.config with
            | none => 2 ^ 40
            | some c => c.moduleSize
          let fieldsBad := entryValid e.bytes = true ∧
            ((entryBase e.bytes).toNat % 4096 ≠ 0 ∨ entryPages e.bytes = 0 ∨
              2 ^ 28 < entryPages e.bytes ∨ entryPolicy e.bytes = none ∨
              entryUngrouped e.bytes = none ∨
              limit < (entryBase e.bytes).toNat + entryPages e.bytes * 4096)
          (¬triple → exec (.commitEntry body) s = answer .mismatch) ∧
          (triple → (e.short = true ∨ 15 < e.index.toNat ∨ fieldsBad) →
            exec (.commitEntry body) s = answer .badArgument))) ∧
  (∀ (s : State) (e : PendingEntry) (w : Window), s.calm → s.mode ≠ .halted → s.mode ≠ .safe →
      s.pendingEntry = some e → e.short = false → e.index.toNat ≤ 15 →
      (if entryValid e.bytes then s.entryFields e.bytes = some w
        else w = { valid := false, base := 0#40, pages := 0, policy := .pass, ungrouped := .pass }) →
      let body := [3#8, e.index, e.check, flagsByte e]
      let answer := fun status : RespStatus => Host.Outcome.next (φ := Fault) (ρ := Refusal)
        (State.endEvent { s with sent := [], response := some { status := status, data := [] } })
      let inside := fun (base bytes a : Nat) => base ≤ a ∧ a < base + bytes
      let conflict := w.valid = true ∧ ∃ a, inside w.base.toNat (w.pages * 4096) a ∧
        ((∃ j v, s.windows[j]? = some v ∧ j ≠ e.index.toNat ∧ v.valid = true ∧
            inside v.base.toNat (v.pages * 4096) a) ∨
          ∃ c, s.config = some c ∧ inside c.base.toNat c.size a)
      let busyIn := fun v : Window => v.valid = true ∧ ∃ m ∈ s.staging.entries, m.isPass = false ∧
        ∃ a, inside (lineOf m.addr * 64) 64 a ∧ inside v.base.toNat (v.pages * 4096) a
      (conflict → exec (.commitEntry body) s = answer .conflict) ∧
      (¬conflict → (busyIn w ∨ ∃ v, s.windows[e.index.toNat]? = some v ∧ busyIn v) →
        exec (.commitEntry body) s = answer .busy) ∧
      (¬conflict → ¬busyIn w → (∀ v, s.windows[e.index.toNat]? = some v → ¬busyIn v) →
        exec (.commitEntry body) s = .next (State.endEvent
          { s with
            sent := []
            windows := s.windows.set e.index.toNat w
            pendingEntry := some { e with accepted := true }
            response := some { status := .done, data := [] } })))

/-- START: BAD_STATE outside UNCONFIGURED or with no journal configuration, then BAD_ARGUMENT for an option
byte above 1; else RECOVERING, the engine in phase ANCHORS, the epoch parameter kept for a FRESH start, and
the hold timer running unless the lower link is UP. -/
def Obligations.StartIsJudgedInOrder : Prop :=
  ∀ (s : State) (fresh e0 e1 e2 e3 : Byte), s.calm →
    let body := [5#8, fresh, e0, e1, e2, e3]
    let answer := fun status : RespStatus => Host.Outcome.next (φ := Fault) (ρ := Refusal)
      (State.endEvent { s with sent := [], response := some { status := status, data := [] } })
    ((s.mode ≠ .unconfigured ∨ s.config = none) → exec (.start body) s = answer .badState) ∧
    (s.mode = .unconfigured → s.config ≠ none → 1 < fresh.toNat →
      exec (.start body) s = answer .badArgument) ∧
    (s.mode = .unconfigured → s.config ≠ none → fresh.toNat ≤ 1 →
      exec (.start body) s = .next (State.endEvent
        { s with
          sent := []
          response := some { status := .done, data := [] }
          mode := .recovering
          safeLine := false
          recovery :=
            { phase := .anchors
              kind := some (if fresh.toNat = 1 then .fresh else .normal)
              epochParam :=
                if fresh.toNat = 1 then
                  some (BitVec.ofNat 32 (e0.toNat + 256 * (e1.toNat + 256 * (e2.toNat + 256 *
                    e3.toNat))))
                else none
              anchor0 := none, anchor1 := none, scan := none, inFlight := [], fenceOut := false
              replayed := 0 }
          holdTimer :=
            if s.lower.state = .up ∨ s.holdTimer.isSome = true then s.holdTimer
            else some s.params.holdTime }))

/-- READ FAULT removes the oldest record and answers it in 20 bytes; ALERT_N goes high when the list is then
empty; an empty list is answered EMPTY. The bytes are the sequence number, the cause, the mode, the presence
of the five optional fields, and those fields, an absent one zero; that bits 7:5 of the presence byte are 0 is
the model's choice (log 44). -/
def Obligations.ReadFaultRemovesTheOldestRecord : Prop :=
  (∀ s : State, s.calm →
    (s.faults = [] →
      exec (.readFault [0#8]) s = .next (State.endEvent
        { s with sent := [], response := some { status := .empty, data := [] } })) ∧
    ∀ r rest, s.faults = r :: rest →
      exec (.readFault [0#8]) s = .next (State.endEvent
        { s with
          sent := []
          faults := rest
          alert := !rest.isEmpty
          response := some { status := .done, data := faultBytes r } })) ∧
  ∀ r : FaultRecord,
    let data := faultBytes r
    let flag := fun (b : Bool) (weight : Nat) => if b then weight else 0
    data.length = 20 ∧ fieldAt data 0 2 = r.seq.toNat ∧
      data[2]? = some (match r.cause with
        | .tallyMismatch => 0x01#8
        | .stray => 0x02#8
        | .poisoned => 0x03#8
        | .oversize => 0x04#8
        | .linkDown => 0x05#8
        | .power => 0x06#8
        | .deniedWrite => 0x07#8
        | .malformed => 0x08#8
        | .creditOverrun => 0x09#8
        | .upperLinkDown => 0x0A#8
        | .lowerLinkDown => 0x0B#8
        | .retrain => 0x0C#8
        | .lowerLoss => 0x0D#8
        | .mediaError => 0x0E#8
        | .recoveryDone => 0x0F#8
        | .recoveryFailed => 0x10#8
        | .holdupExpired => 0x11#8
        | .holdupDone => 0x12#8) ∧
      data[3]? = some (match r.mode with
        | .unconfigured => 0#8
        | .recovering => 1#8
        | .operating => 2#8
        | .holdup => 3#8
        | .safe => 4#8
        | .halted => 5#8) ∧
      data[4]? = some (BitVec.ofNat 8 (flag r.stream.isSome 1 + flag r.serial.isSome 2 +
        flag r.addr.isSome 4 + flag r.count.isSome 8 + flag r.link.isSome 16)) ∧
      data[5]? = some (BitVec.ofNat 8 (r.stream.getD 0)) ∧
      fieldAt data 6 4 = (r.serial.getD 0#32).toNat ∧
      fieldAt data 10 5 = (r.addr.getD 0#40).toNat ∧
      fieldAt data 15 4 = r.count.getD 0 % 2 ^ 32 ∧
      data[19]? = some (if r.link = some .lower then 1#8 else 0#8)

/-! ### The classifier, the group unit and the read unit -/

/-- The line verdict: beyond the module, in the journal region, in a valid window, else the default. -/
def Obligations.LineVerdictIsTakenInOrder : Prop :=
  ∀ (s : State) (addr : Addr),
    let a := lineOf addr * 64
    let beyond := ∃ c, s.config = some c ∧ c.moduleSize ≤ a
    let region := ∃ c, s.config = some c ∧ c.base.toNat ≤ a ∧ a < c.base.toNat + c.size
    let inWindow := fun w : Window =>
      w.valid = true ∧ w.base.toNat ≤ a ∧ a < w.base.toNat + w.pages * 4096
    (beyond → s.verdict addr = .beyond) ∧
    (¬beyond → region → s.verdict addr = .journalRegion) ∧
    (∀ w ∈ s.windows, ¬beyond → ¬region → inWindow w → (∀ v ∈ s.windows, inWindow v → v = w) →
      s.verdict addr = .window w.policy w.ungrouped) ∧
    (¬beyond → ¬region → (∀ w ∈ s.windows, ¬inWindow w) → s.verdict addr = .default s.params.default)

/-- A write of length 1 to 64 without flags, taken in OPERATING: staged at the tail as a PASS entry where
its verdict allows it, else denied with a record and its credits returned. -/
def Obligations.PlainWriteIsStagedOrDenied : Prop :=
  ∀ (s : State) (r : Request) (rest : List QueueItem), s.calm → s.mode = .operating →
    s.queue = .request r :: rest → s.horizonHold = false → r.kind = .write → 1 ≤ r.length →
    r.length ≤ 64 → r.addr.toNat % 64 + r.length ≤ 64 → r.group = false → r.close = false →
    let allowed := (∃ u, s.verdict r.addr = .window .pass u) ∨
      s.verdict r.addr = .window .journal .pass ∨ s.verdict r.addr = .default .pass
    (allowed →
      exec .takeRequest s = .next (State.endEvent
        { s with
          sent := [], queue := rest, intake := s.intake + 1#32
          staging :=
            { entries := s.staging.entries ++
                [{ intake := s.intake, addr := r.addr, length := r.length, data := r.data
                   kind := .pass .waiting, poison := r.poison }]
              freeEntries := s.staging.freeEntries - 1
              freeUnits := s.staging.freeUnits - (r.length + 15) / 16 } })) ∧
    (¬allowed →
      exec .takeRequest s = .next (State.endEvent
        { s.recorded { s.record .deniedWrite .operating with addr := some r.addr } with
          sent := [], queue := rest, intake := s.intake + 1#32
          credits := s.credits.giveBack true
            { wh := 1, wd := (r.length + 15) / 16, rd := 0 } }))

/-- The malformed requests, taken in OPERATING: dropped with a record and their charge returned. -/
def Obligations.MalformedRequestIsDropped : Prop :=
  ∀ (s : State) (r : Request) (rest : List QueueItem), s.calm → s.mode = .operating →
    s.queue = .request r :: rest → s.horizonHold = false → s.recordHold r = false →
    ((∃ code, r.kind = .reserved code) ∨
      r.kind = .write ∧
        (64 < r.length ∨ 1 ≤ r.length ∧ 64 < r.addr.toNat % 64 + r.length ∨
          r.close = true ∧ 64 < r.count ∨ r.close = true ∧ r.group = false)) →
    exec .takeRequest s = .next (State.endEvent
      { s.recorded { s.record .malformed .operating with
          addr := some r.addr, stream := if r.group then some r.stream else none } with
        sent := [], queue := rest, intake := s.intake + 1#32
        credits := s.credits.giveBack true r.charge })

/-- A zero-length write, taken in OPERATING, returns its header credit. It does nothing else without both
flags; as a close on an IDLE stream it is an empty close, counted as a discard when it expected members. -/
def Obligations.ZeroLengthWriteIsConsumed : Prop :=
  ∀ (s : State) (r : Request) (rest : List QueueItem), s.calm → s.mode = .operating →
    s.queue = .request r :: rest → s.horizonHold = false → r.kind = .write → r.length = 0 →
    (r.close = true → r.group = true ∧ r.count ≤ 64) →
    let taken : State :=
      { s with
        sent := [], queue := rest, intake := s.intake + 1#32
        credits := s.credits.giveBack true { wh := 1, wd := 0, rd := 0 } }
    (r.close = false → exec .takeRequest s = .next (State.endEvent taken)) ∧
    (r.close = true → (s.stream r.stream).group = none →
      (r.count = 0 → exec .takeRequest s = .next (State.endEvent taken)) ∧
      (1 ≤ r.count →
        exec .takeRequest s = .next (State.endEvent
          { taken.recorded { s.record .tallyMismatch .operating with
              stream := some r.stream, count := some 0 } with
            streams := s.streams.modify r.stream fun st =>
              { st with
                discards := min 255 (st.discards + 1), lastCause := some .tallyMismatch } })))

/-- A group write with data and without the close flag. At its stream's OPEN group it is staged as the next
member, or dropped with its credits returned when the group has or takes a fault cause. On an IDLE stream
it opens a group in the lowest free record, and is its first member; outside a JOURNAL window or poisoned it
opens the group with that fault cause, counted and signed, and is dropped with its credits returned. What
the close flag adds to such a write is `Obligations.CloseIsJudged`. -/
def Obligations.GroupWriteJoinsOrOpensAGroup : Prop :=
  (∀ (s : State) (r : Request) (rest : List QueueItem) (i : Nat) (g : Group), s.calm →
      s.mode = .operating → s.queue = .request r :: rest → s.horizonHold = false → r.kind = .write →
      1 ≤ r.length → r.length ≤ 64 → r.addr.toNat % 64 + r.length ≤ 64 → r.group = true →
      r.close = false → (s.stream r.stream).group = some i → s.group? i = some g →
      let inJournal := ∃ u, s.verdict r.addr = .window .journal u
      let sig := g.sig + BitVec.ofNat 16 (lineOf r.addr)
      (g.fault = none → inJournal → r.poison = false → g.count < 64 →
        exec .takeRequest s = .next (State.endEvent
          { s with
            sent := [], queue := rest, intake := s.intake + 1#32
            staging :=
              { entries := s.staging.entries ++
                  [{ intake := s.intake, addr := r.addr, length := r.length, data := r.data
                     kind := .member i g.count .held, poison := false }]
                freeEntries := s.staging.freeEntries - 1
                freeUnits := s.staging.freeUnits - (r.length + 15) / 16 }
            groups := s.groups.set i (some
              { g with members := g.members ++ [g.count], count := g.count + 1, sig := sig }) })) ∧
      ∀ cause,
        (g.fault = some cause ∨
          g.fault = none ∧
            (¬inJournal ∧ cause = .stray ∨ inJournal ∧ r.poison = true ∧ cause = .poisoned ∨
              inJournal ∧ r.poison = false ∧ 64 ≤ g.count ∧ cause = .oversize)) →
        exec .takeRequest s = .next (State.endEvent
          { s with
            sent := [], queue := rest, intake := s.intake + 1#32
            groups := s.groups.set i (some
              { g with fault := some cause, count := min 64 (g.count + 1), sig := sig })
            credits := s.credits.giveBack true { wh := 1, wd := (r.length + 15) / 16, rd := 0 } })) ∧
  ∀ (s : State) (r : Request) (rest : List QueueItem) (i : Nat), s.calm → s.mode = .operating →
    s.queue = .request r :: rest → s.horizonHold = false → r.kind = .write → 1 ≤ r.length →
    r.length ≤ 64 → r.addr.toNat % 64 + r.length ≤ 64 → r.group = true → r.close = false →
    (s.stream r.stream).group = none → s.groups[i]? = some none →
    (∀ j, j < i → ∃ g, s.groups[j]? = some (some g)) →
    let inJournal := ∃ u, s.verdict r.addr = .window .journal u
    let opened : Group :=
      { stream := r.stream, state := .opened, count := 1, sig := BitVec.ofNat 16 (lineOf r.addr)
        members := [0], fault := none, serial := none, closeIntake := none, start := none
        lines := none, fenceComplete := false }
    let taken : State :=
      { s with
        sent := [], queue := rest, intake := s.intake + 1#32
        streams := s.streams.modify r.stream fun st => { st with group := some i } }
    (inJournal → r.poison = false →
      exec .takeRequest s = .next (State.endEvent
        { taken with
          staging :=
            { entries := s.staging.entries ++
                [{ intake := s.intake, addr := r.addr, length := r.length, data := r.data
                   kind := .member i 0 .held, poison := false }]
              freeEntries := s.staging.freeEntries - 1
              freeUnits := s.staging.freeUnits - (r.length + 15) / 16 }
          groups := s.groups.set i (some opened) })) ∧
    ∀ cause, (¬inJournal ∧ cause = .stray ∨ inJournal ∧ r.poison = true ∧ cause = .poisoned) →
      exec .takeRequest s = .next (State.endEvent
        { taken with
          groups := s.groups.set i (some { opened with members := [], fault := some cause })
          credits := s.credits.giveBack true { wh := 1, wd := (r.length + 15) / 16, rd := 0 } })

/-- A close at its stream's OPEN group, judged. Without data: with no fault cause and a matching tally the
group is CLOSED under the next serial and joins the journal's queue; else it is discarded, its entries freed
with their credits returned, its stream IDLE with the discard counted, its record free. With data the write
is first a member of its group, which it opens on an IDLE stream, or is dropped with its credits returned,
counted and signed, and the close is then judged on the group as that leaves it. -/
def Obligations.CloseIsJudged : Prop :=
  (∀ (s : State) (r : Request) (rest : List QueueItem) (i : Nat) (g : Group) (serial : Num32),
      s.calm → s.mode = .operating → s.queue = .request r :: rest → s.horizonHold = false →
      r.kind = .write → r.length = 0 → r.group = true → r.close = true → r.count ≤ 64 →
      (s.stream r.stream).group = some i → s.group? i = some g → g.stream = r.stream →
      s.serial = some serial →
      (g.fault = none → g.count = r.count → g.sig = r.sig →
        exec .takeRequest s = .next (State.endEvent
          { s with
            sent := [], queue := rest, intake := s.intake + 1#32
            credits := s.credits.giveBack true { wh := 1, wd := 0, rd := 0 }
            serial := some (serial + 1#32)
            groups := s.groups.set i (some
              { g with state := .closed, serial := some serial, closeIntake := some s.intake })
            streams := s.streams.modify r.stream fun st => { st with group := none }
            journal := { s.journal with queue := s.journal.queue ++ [i] } })) ∧
      ∀ cause,
        (g.fault = some cause ∨
          g.fault = none ∧ (g.count ≠ r.count ∨ g.sig ≠ r.sig) ∧ cause = .tallyMismatch) →
        EffectOf .takeRequest s fun u =>
          let out := s.staging.entries.filter fun e => e.inRecord i
          let units := (out.map fun e => (e.length + 15) / 16).sum
          u.staging =
              { entries := s.staging.entries.filter fun e => !e.inRecord i
                freeEntries := s.staging.freeEntries + out.length
                freeUnits := s.staging.freeUnits + units } ∧
            u.credits =
              (s.credits.giveBack true { wh := 1, wd := 0, rd := 0 }).giveBack true
                { wh := out.length, wd := units, rd := 0 } ∧
            u.groups = s.groups.set i none ∧
            u.streams = (s.streams.modify r.stream fun st =>
              { group := none, discards := min 255 (st.discards + 1), lastCause := some cause }) ∧
            u.faults = pushFault s.faults
              { s.record cause .operating with
                stream := some r.stream, count := some g.count } ∧
            u.serial = s.serial ∧ u.journal = s.journal ∧ u.mode = .operating ∧ u.queue = rest ∧
            u.intake = s.intake + 1#32) ∧
  ∀ (s : State) (r : Request) (rest : List QueueItem) (i : Nat) (g : Group) (serial : Num32), s.calm →
    s.mode = .operating → s.queue = .request r :: rest → s.horizonHold = false → r.kind = .write →
    1 ≤ r.length → r.length ≤ 64 → r.addr.toNat % 64 + r.length ≤ 64 → r.group = true →
    r.close = true → r.count ≤ 64 → s.serial = some serial → r.stream < s.streams.length →
    ((s.stream r.stream).group = some i ∧ s.group? i = some g ∧ g.stream = r.stream ∨
      (s.stream r.stream).group = none ∧ s.groups[i]? = some none ∧
        (∀ j, j < i → ∃ h, s.groups[j]? = some (some h)) ∧ g = .fresh r.stream) →
    let inJournal := ∃ u, s.verdict r.addr = .window .journal u
    let sig := g.sig + BitVec.ofNat 16 (lineOf r.addr)
    let clean := g.fault = none ∧ inJournal ∧ r.poison = false ∧ g.count < 64
    let entry : Entry :=
      { intake := s.intake, addr := r.addr, length := r.length, data := r.data
        kind := .member i g.count .held, poison := false }
    let discarded := fun (u : State) (cause : Cause) (count : Nat) (staged : Staging)
        (credits : UpperCredits) =>
      let out := staged.entries.filter fun e => e.inRecord i
      let units := (out.map fun e => (e.length + 15) / 16).sum
      u.staging =
          { entries := staged.entries.filter fun e => !e.inRecord i
            freeEntries := staged.freeEntries + out.length
            freeUnits := staged.freeUnits + units } ∧
        u.credits = credits.giveBack true { wh := out.length, wd := units, rd := 0 } ∧
        u.groups = s.groups.set i none ∧
        u.streams = (s.streams.modify r.stream fun st =>
          { group := none, discards := min 255 (st.discards + 1), lastCause := some cause }) ∧
        u.faults = pushFault s.faults
          { s.record cause .operating with stream := some r.stream, count := some count } ∧
        u.serial = s.serial ∧ u.journal = s.journal ∧ u.mode = .operating ∧ u.queue = rest ∧
        u.intake = s.intake + 1#32
    let staged : Staging :=
      { entries := s.staging.entries ++ [entry], freeEntries := s.staging.freeEntries - 1
        freeUnits := s.staging.freeUnits - (r.length + 15) / 16 }
    (clean → g.count + 1 = r.count → sig = r.sig →
      exec .takeRequest s = .next (State.endEvent
        { s with
          sent := [], queue := rest, intake := s.intake + 1#32, staging := staged
          serial := some (serial + 1#32)
          groups := s.groups.set i (some
            { g with
              members := g.members ++ [g.count], count := g.count + 1, sig := sig, state := .closed
              serial := some serial, closeIntake := some s.intake })
          streams := s.streams.modify r.stream fun st => { st with group := none }
          journal := { s.journal with queue := s.journal.queue ++ [i] } })) ∧
    (clean → (g.count + 1 ≠ r.count ∨ sig ≠ r.sig) →
      EffectOf .takeRequest s fun u =>
        discarded u .tallyMismatch (g.count + 1) staged s.credits) ∧
    ∀ cause,
      (g.fault = some cause ∨
        g.fault = none ∧
          (¬inJournal ∧ cause = .stray ∨ inJournal ∧ r.poison = true ∧ cause = .poisoned ∨
            inJournal ∧ r.poison = false ∧ 64 ≤ g.count ∧ cause = .oversize)) →
      EffectOf .takeRequest s fun u =>
        discarded u cause (min 64 (g.count + 1)) s.staging
          (s.credits.giveBack true { wh := 1, wd := (r.length + 15) / 16, rd := 0 })

/-- A read or flush taken in OPERATING gets the lowest free record, and is there REFUSED for a tag in use or
a wrong form, DENIED for its verdict, or left HELD or WAITING; in HALTED it is FAILED. With a LINK_DOWN marker
behind it the record is an orphan's: where it would be DONE at once the completion is dropped, the record is
free and its read credit returned. -/
def Obligations.ReadGetsARecord : Prop :=
  ∀ (s : State) (r : Request) (rest : List QueueItem) (i : Nat), s.calm →
    (s.mode = .operating ∧ s.horizonHold = false ∨ s.mode = .halted) →
    s.queue = .request r :: rest → r.kind = .read → s.reads[i]? = some none →
    (∀ j, j < i → ∃ rec, s.reads[j]? = some (some rec)) →
    let taken : State := { s with sent := [], queue := rest, intake := s.intake + 1#32 }
    let kind : ReadKind :=
      if 1 ≤ r.length then .read r.addr r.length
      else if r.group then .streamFlush r.stream s.serial none
      else .globalFlush s.serial none
    let duplicate := ∃ j rec, s.read? j = some rec ∧ rec.orphan = false ∧ rec.tag = r.tag ∧
      ∀ c, rec.state = .done c → c.status ≠ .refused
    let malformed := r.close = true ∨ 1 ≤ r.length ∧ r.length ≤ 64 ∧ r.group = true ∨
      64 < r.length ∨ 1 ≤ r.length ∧ 64 < r.addr.toNat % 64 + r.length
    let denied := 1 ≤ r.length ∧
      (s.verdict r.addr = .beyond ∨ ∃ u, s.verdict r.addr = .window .closed u)
    let orphan := decide (.linkDownMarker ∈ rest)
    let done := fun status : Status => Host.Outcome.next (φ := Fault) (ρ := Refusal) (State.endEvent
      (if orphan then
        { taken with credits := s.credits.giveBack true { wh := 0, wd := 0, rd := 1 } }
      else
        { taken with
          reads := s.reads.set i (some
            { tag := r.tag, kind := kind, intake := s.intake, orphan := false
              state := .done { tag := r.tag, status := status, data := [] } })
          formed := s.formed ++ [.record i] }))
    (s.mode = .halted → exec .takeRequest s = done .failed) ∧
    (s.mode = .operating →
      (duplicate ∨ malformed → exec .takeRequest s = done .refused) ∧
      (¬duplicate → ¬malformed → denied → exec .takeRequest s = done .denied) ∧
      (¬duplicate → ¬malformed → ¬denied →
        exec .takeRequest s = .next (State.endEvent
          { taken with
            reads := s.reads.set i (some
              { tag := r.tag, kind := kind, intake := s.intake, orphan := orphan
                state := if 1 ≤ r.length then .held else .waiting }) })))

/-- A stream flush that finds no group of its stream to wait for takes the stream's discard count and cause
in its own event, and is DONE with OK or LOST; a global flush with nothing staged or uncommitted and the
durable mark at the pass-send count is DONE with OK. A WAITING flush is examined at the end of every event: a
global one has its pass target once no earlier PASS entry is staged, and is DONE with OK when its groups are
committed and the durable mark has reached the target; a stream one takes and is DONE when its groups are. An
orphan's completion is dropped, a taken count and cause going back to the stream; a flush not yet met stays.
Of two met flushes on one stream the earlier takes and the later finds nothing. -/
def Obligations.FlushWithItsConditionMetIsDone : Prop :=
  (∀ (s : State) (r : Request) (rest : List QueueItem) (i : Nat), s.calm → s.mode = .operating →
    s.sized → s.horizonHold = false → s.queue = .request r :: rest → r.kind = .read → r.length = 0 →
    r.close = false → s.reads[i]? = some none → (∀ k, s.read? k = none) →
    (∀ j, j < i → ∃ rec, s.reads[j]? = some (some rec)) → .linkDownMarker ∉ rest →
    (r.group = true → r.stream < 8 →
      (∀ k g, s.group? k = some g → g.stream = r.stream → g.serial.isSome = true →
        g.state = .committed ∨ g.state = .applying ∨ g.state = .applied) →
      After .takeRequest s fun t =>
        let st := s.stream r.stream
        (∃ rec, t.read? i = some rec ∧ rec.state = .done
          { tag := r.tag, status := if st.discards = 0 then .ok else .lost
            data := [BitVec.ofNat 8 st.discards
              , BitVec.ofNat 8 (causeCode st.lastCause), 0#8, 0#8] }) ∧
          t.formed = s.formed ++ [.record i] ∧
          t.stream r.stream = { st with discards := 0, lastCause := none } ∧
          ∀ k, k ≠ r.stream → t.stream k = s.stream k) ∧
    (r.group = false →
      (∀ k g, s.group? k = some g → g.serial.isSome = true →
        g.state = .committed ∨ g.state = .applying ∨ g.state = .applied) →
      (∀ e ∈ s.staging.entries, e.isPass = false) → s.marks.durable = s.marks.passSend →
      After .takeRequest s fun t =>
        (∃ rec, t.read? i = some rec ∧
          rec.state = .done { tag := r.tag, status := .ok, data := [] }) ∧
          t.formed = s.formed ++ [.record i] ∧ t.streams = s.streams)) ∧
  (∀ (s : State) (i : Nat) (rec : ReadRecord) (bound target : Option Num32), s.mode = .operating →
      s.read? i = some rec → rec.state = .waiting → rec.kind = .globalFlush bound target →
      let aimed := match target with
        | some n => some n
        | none =>
          if s.staging.entries.any fun e => e.isPass && earlier e.intake rec.intake then none
          else some s.marks.passSend
      let met := s.FlushGroupsSafe (fun _ => True) bound ∧
        ∃ n, aimed = some n ∧ (s.marks.durable = n ∨ earlier n s.marks.durable = true)
      let t := State.endEvent s
      (met → rec.orphan = false →
        t.read? i = some { rec with
            kind := .globalFlush bound aimed
            state := .done { tag := rec.tag, status := .ok, data := [] } } ∧
          .record i ∈ t.formed) ∧
      (met → rec.orphan = true → t.read? i = none) ∧
      (¬met → t.read? i = some { rec with kind := .globalFlush bound aimed })) ∧
  (∀ (s : State) (i k : Nat) (rec : ReadRecord) (bound : Option Num32) (taken : Option Taken),
      s.mode = .operating → s.read? i = some rec → rec.state = .waiting →
      rec.kind = .streamFlush k bound taken → k < s.streams.length →
      (∀ j rec' bound' taken', j ≠ i → s.read? j = some rec' → rec'.state = .waiting →
        rec'.kind ≠ .streamFlush k bound' taken') →
      let met := s.FlushGroupsSafe (fun st => st = k) bound
      let st := s.stream k
      let t := State.endEvent s
      (met → rec.orphan = false →
        t.read? i = some { rec with
            kind := .streamFlush k bound (some { count := st.discards, cause := st.lastCause })
            state := .done
              { tag := rec.tag, status := if st.discards = 0 then .ok else .lost
                data := [BitVec.ofNat 8 st.discards
                  , BitVec.ofNat 8 (causeCode st.lastCause), 0#8, 0#8] } } ∧
          .record i ∈ t.formed ∧ t.stream k = { st with discards := 0, lastCause := none }) ∧
      (met → rec.orphan = true → st.discards ≤ 255 → t.read? i = none ∧ t.stream k = st) ∧
      (¬met → t.read? i = some rec ∧ t.stream k = st)) ∧
  ∀ (s : State) (i j k : Nat) (first second : ReadRecord) (b b' : Option Num32)
    (tk tk' : Option Taken), s.mode = .operating → i ≠ j → s.read? i = some first →
    s.read? j = some second → (∀ q, q ≠ i → q ≠ j → s.read? q = none) →
    first.state = .waiting → second.state = .waiting → first.kind = .streamFlush k b tk →
    second.kind = .streamFlush k b' tk' → first.orphan = false → second.orphan = false →
    earlier first.intake second.intake = true → k < s.streams.length →
    s.FlushGroupsSafe (fun st => st = k) b → s.FlushGroupsSafe (fun st => st = k) b' →
    let st := s.stream k
    let t := State.endEvent s
    t.formed = s.formed ++ [.record i, .record j] ∧
      (∃ u, t.read? i = some u ∧ u.state = .done
        { tag := first.tag, status := if st.discards = 0 then .ok else .lost
          data := [BitVec.ofNat 8 st.discards
            , BitVec.ofNat 8 (causeCode st.lastCause), 0#8, 0#8] }) ∧
      (∃ u, t.read? j = some u ∧ u.state = .done
        { tag := second.tag, status := .ok, data := [0#8, 0#8, 0#8, 0#8] }) ∧
      t.stream k = { st with discards := 0, lastCause := none }

/-- A held head stays: a data-carrying group write on an IDLE stream with no free record, or the ordering
horizon 2^30 behind the intake counter. Outside OPERATING and HALTED nothing is taken either. -/
def Obligations.HoldsKeepTheHead : Prop :=
  ∀ (s : State) (r : Request) (rest : List QueueItem), s.calm → s.queue = .request r :: rest →
    (s.mode = .operating ∧
        (r.kind = .write ∧ r.group = true ∧ 1 ≤ r.length ∧ (s.stream r.stream).group = none ∧
            (∀ o ∈ s.groups, o ≠ none) ∨
          ∃ h, s.horizon = some h ∧ 2 ^ 30 ≤ (s.intake - h).toNat) ∨
      s.mode ≠ .operating ∧ s.mode ≠ .halted) →
    exec .takeRequest s = .next (State.endEvent { s with sent := [] })

/-- A LINK_DOWN marker at the head: in OPERATING it discards the OPEN group of every stream and no other
group, with one record each in ascending order of stream, their members freed and the credits of these
returned; in HOLDUP and HALTED it is removed with no effect. -/
def Obligations.LinkDownMarkerDiscardsOpenGroups : Prop :=
  ∀ (s : State) (rest : List QueueItem), s.calm → s.queue = .linkDownMarker :: rest →
    (s.mode = .operating → s.sized → (∀ i, s.streamGood i) →
      EffectOf .linkDownMarkerAtHead s fun u =>
        u.queue = rest ∧ (∀ i, (u.stream i).group = none) ∧
          (∀ i r, (s.stream i).group = some r →
            u.group? r = none ∧
              u.stream i =
                { group := none, discards := min 255 ((s.stream i).discards + 1)
                  lastCause := some .linkDown }) ∧
          (∀ i, (s.stream i).group = none → u.stream i = s.stream i) ∧
          (∀ r g, s.group? r = some g → (∀ i, (s.stream i).group ≠ some r) →
            u.group? r = some g) ∧
          s.OpenDiscarded u .operating .linkDown ∧
          u.credits = s.credits.giveBack true s.openAmount ∧
          u.intake = s.intake ∧ u.serial = s.serial ∧ u.reads = s.reads ∧ u.mode = s.mode ∧
          u.formed = s.formed ∧ u.journal = s.journal) ∧
    ((s.mode = .holdup ∨ s.mode = .halted) →
      exec .linkDownMarkerAtHead s = .next (State.endEvent { s with sent := [], queue := rest }))

/-- A request at the head in HOLDUP: a write is dropped, a read or flush answered FAILED without a record
where the upper link is UP and no LINK_DOWN marker stands behind it; its charge returns to the pools and
no limit moves. In HALTED a write is dropped with its charge returned and advertised, and with no record. -/
def Obligations.HoldupAndHaltedDropTheHead : Prop :=
  (∀ (s : State) (r : Request) (rest : List QueueItem), s.calm → s.mode = .holdup →
      s.queue = .request r :: rest →
      let credits := { s.credits with pool := s.credits.pool.add r.charge }
      (r.kind = .read → s.upper.state = .up → .linkDownMarker ∉ rest →
        exec .holdupIntake s = .next (State.endEvent
          { s with
            sent := [], queue := rest, credits := credits
            formed := s.formed ++ [.direct { tag := r.tag, status := .failed, data := [] }] })) ∧
      ((r.kind ≠ .read ∨ s.upper.state ≠ .up ∨ .linkDownMarker ∈ rest) →
        exec .holdupIntake s = .next (State.endEvent
          { s with sent := [], queue := rest, credits := credits }))) ∧
  (∀ (s : State) (r : Request) (rest : List QueueItem), s.calm → s.mode = .halted →
      s.queue = .request r :: rest → r.kind ≠ .read →
      exec .takeRequest s = .next
        { s with
          sent := [], queue := rest, intake := s.intake + 1#32
          credits := s.credits.giveBack true r.charge, claims := .none })

/-! ### The lower side, and what the ULP sends -/

/-- An arbiter grant with no claim held: the first source in circle order, from the round-robin position,
with a packet ready is granted when its charge fits. It takes the next sequence and its tag, is charged,
and joins the end of the retry buffer; a fence moves the granted mark. A held claim bars the packets of every
other source that need its kind, and no more; the grant ends its source's own claims. A source skipped for
want of credit takes the claim of each kind it lacks that is free, and they bar the sources after it; that it
does so in an examination that grants nothing is the model's reading (log 19). -/
def Obligations.ArbiterGrantsTheFirstReadySource : Prop :=
  (∀ (s : State) (before after : List Source) (src : Source) (o : Offer), s.calm →
    s.lower.state = .up → (∀ p ∈ s.lowerRetry, p.resend = false) → s.lowerRetry.length < 64 →
    s.claims = .none → s.robin < 7 →
    (([.passDrain, .journal, .apply, .checkpoint, .readIssue, .flushFence, .recovery] :
      List Source).rotateLeft s.robin) = before ++ src :: after →
    (∀ b ∈ before, s.offer b = none) → s.offer src = some o →
    o.body.charge.fits s.lowerAvailable = true →
    EffectOf .arbiterGrant s fun u =>
      u.robin = (src.position + 1) % 7 ∧ u.claims = .none ∧
        u.sent = [.request s.lower.nextTx o.body] ∧
        u.lowerRetry = s.lowerRetry ++
          [{ seq := s.lower.nextTx, body := o.body, acked := false, resend := false }] ∧
        u.lower = { s.lower with nextTx := s.lower.nextTx + 1#12, replayTimer := true } ∧
        u.lowerCredits =
          { s.lowerCredits with consumed := s.lowerCredits.consumed.raise o.body.charge } ∧
        u.tags = (match o.tag with
          | some (t, info) => s.tags.set t (.outstanding info)
          | none => s.tags) ∧
        u.marks.granted = (match o.body with
          | .fence _ => s.marks.passSend
          | _ => s.marks.granted) ∧
        u.marks.durable = s.marks.durable ∧ u.mode = s.mode ∧ u.faults = s.faults ∧
        u.queue = s.queue ∧ u.formed = s.formed ∧ u.streams = s.streams) ∧
  (∀ (s : State) (before after : List Source) (src : Source) (o : Offer), s.calm →
      s.lower.state = .up → (∀ p ∈ s.lowerRetry, p.resend = false) → s.lowerRetry.length < 64 →
      s.robin < 7 →
      (([.passDrain, .journal, .apply, .checkpoint, .readIssue, .flushFence, .recovery] :
        List Source).rotateLeft s.robin) = before ++ src :: after →
      (∀ b ∈ before, s.offer b = none ∨ ∃ x, s.offer b = some x ∧
        x.body.charge.fits s.lowerAvailable = true ∧ s.claims.HeldAgainst b x.body.charge) →
      s.offer src = some o → o.body.charge.fits s.lowerAvailable = true →
      ¬s.claims.HeldAgainst src o.body.charge →
      EffectOf .arbiterGrant s fun u =>
        u.sent = [.request s.lower.nextTx o.body] ∧ u.robin = (src.position + 1) % 7 ∧
          u.claims =
            { wh := s.claims.wh.filter fun h => h != src
              wd := s.claims.wd.filter fun h => h != src
              rd := s.claims.rd.filter fun h => h != src }) ∧
  ∀ (s : State) (before after : List Source) (src : Source) (o : Offer), s.calm →
    s.lower.state = .up → (∀ p ∈ s.lowerRetry, p.resend = false) → s.lowerRetry.length < 64 →
    s.robin < 7 →
    (([.passDrain, .journal, .apply, .checkpoint, .readIssue, .flushFence, .recovery] :
      List Source).rotateLeft s.robin) = before ++ src :: after →
    (∀ b ∈ before, s.offer b = none) → s.offer src = some o →
    o.body.charge.fits s.lowerAvailable = false →
    let need := o.body.charge
    let credit := s.lowerAvailable
    let taken : Claims :=
      { wh := if s.claims.wh = none ∧ credit.wh < need.wh then some src else s.claims.wh
        wd := if s.claims.wd = none ∧ credit.wd < need.wd then some src else s.claims.wd
        rd := if s.claims.rd = none ∧ credit.rd < need.rd then some src else s.claims.rd }
    let onlyClaims := Host.Outcome.next (φ := Fault) (ρ := Refusal)
      (State.endEvent { s with sent := [], claims := taken })
    ((∀ b ∈ after, s.offer b = none) → exec .arbiterGrant s = onlyClaims) ∧
    ∀ (mid post : List Source) (next : Source) (x : Offer), after = mid ++ next :: post →
      (∀ b ∈ mid, s.offer b = none) → s.offer next = some x →
      x.body.charge.fits credit = true →
      (taken.HeldAgainst next x.body.charge → (∀ b ∈ post, s.offer b = none) →
        exec .arbiterGrant s = onlyClaims) ∧
      (¬taken.HeldAgainst next x.body.charge →
        EffectOf .arbiterGrant s fun u =>
          u.sent = [.request s.lower.nextTx x.body] ∧ u.robin = (next.position + 1) % 7 ∧
            u.claims =
              { wh := taken.wh.filter fun h => h != next
                wd := taken.wd.filter fun h => h != next
                rd := taken.rd.filter fun h => h != next })

/-- What each source's grant sends and does at its owner, with no claim held. Pass drain frees and counts the
entry it sends, and in a hold-up sends the final fence while the granted mark is short of the pass target.
JOURNAL sends the current group's body lines, its commit line and its fence, with which the group is
COMMITTING. APPLY sends the next member, unless an earlier PASS entry or an unanswered earlier read stands on
its line, and the group is APPLIED with its last. CHECKPOINT sends fence A, the anchor and fence B, each once.
READ-ISSUE puts the record in ISSUED with its tag. The flush fence goes while some WAITING flush's target has
both marks short of it. RECOVERY sends what its engine's phase asks for. -/
def Obligations.GrantMovesItsOwnerOn : Prop :=
  (∀ s : State, s.calm → s.mode = .operating → s.lower.state = .up →
    (∀ p ∈ s.lowerRetry, p.resend = false) → s.lowerRetry.length < 64 → s.claims = .none →
    (∀ (pre post : List Entry) (e : Entry), s.robin = 0 → s.staging.entries = pre ++ e :: post →
      s.sendable e = true → (∀ x ∈ pre, s.sendable x = false) →
      Amount.fits { wh := 1, wd := unitsOf e.data.length, rd := 0 } s.lowerAvailable = true →
      EffectOf .arbiterGrant s fun u =>
        u.sent = [.request s.lower.nextTx (.write .inPlace e.addr e.data e.poison)] ∧
          u.staging =
            { entries := pre ++ post
              freeEntries := s.staging.freeEntries + 1
              freeUnits := s.staging.freeUnits + unitsOf e.length } ∧
          u.marks = { s.marks with passSend := s.marks.passSend + 1#32 } ∧
          u.credits =
            s.credits.giveBack true { wh := 1, wd := unitsOf e.length, rd := 0 } ∧
          u.groups = s.groups ∧ u.reads = s.reads ∧ u.journal = s.journal ∧ u.ckpt = s.ckpt) ∧
    (∀ (i t : Nat) (rec : ReadRecord) (addr : Addr) (length : Nat), s.robin = 4 →
      s.readyRead = some i → s.read? i = some rec → rec.kind = .read addr length →
      s.freeTag = some t → Amount.fits { wh := 0, wd := 0, rd := 1 } s.lowerAvailable = true →
      EffectOf .arbiterGrant s fun u =>
        u.sent = [.request s.lower.nextTx (.read addr length t)] ∧
          u.read? i = some { rec with state := .issued t } ∧
          u.tag t = .outstanding
            { owner := .read, purpose := .read, ref := .record i, passCount := none
              detached := false } ∧
          u.staging = s.staging ∧ u.groups = s.groups ∧ u.marks = s.marks) ∧
    ∀ (f : CkptFlight) (c : JournalConfig) (epoch gen : Num32), s.robin = 3 →
      s.ckpt.flight = some f → f.phase = .anchor → f.sentAnchor = false → s.config = some c →
      s.journal.epoch = some epoch → s.ckpt.generation = some gen →
      Amount.fits { wh := 1, wd := 4, rd := 0 } s.lowerAvailable = true →
      EffectOf .arbiterGrant s fun u =>
        u.sent = [.request s.lower.nextTx (.write .anchor
          (c.base + BitVec.ofNat 40 (64 * ((gen + 1#32).toNat % 2)))
          (anchorLine { epoch := epoch, generation := gen + 1#32, tail := f.newTail
                        nextSerial := f.newNextSerial, size := c.size }) false)] ∧
          u.ckpt.flight = some { f with sentAnchor := true, phase := .fenceB } ∧
          u.staging = s.staging ∧ u.groups = s.groups ∧ u.reads = s.reads ∧ u.marks = s.marks) ∧
  (∀ (s : State) (r : Nat) (g : Group) (phase : JournalPhase) (c : JournalConfig) (epoch serial : Num32)
      (start : Pos), s.GrantsFrom 1 → (s.mode = .operating ∨ s.mode = .holdup) →
      s.journal.current = some { record := r, phase := phase } → s.group? r = some g →
      s.config = some c → s.journal.epoch = some epoch → g.start = some start →
      g.serial = some serial →
      let writes := fun (k : Nat) (line : List Byte) (next : JournalPhase) =>
        Amount.fits { wh := 1, wd := 4, rd := 0 } s.lowerAvailable = true →
        EffectOf .arbiterGrant s fun u =>
          u.sent = [.request s.lower.nextTx (.write .journal
            (c.base + BitVec.ofNat 40
              (64 * (2 + (start + BitVec.ofNat 48 k).toNat % (c.size / 64 - 2)))) line false)] ∧
            u.journal = { s.journal with current := some { record := r, phase := next } } ∧
            u.groups = s.groups ∧ u.staging = s.staging ∧ u.marks = s.marks ∧ u.tags = s.tags
      (∀ k m e, phase = .body k → g.members[k / 2]? = some m → s.member? r m = some e →
        e.data.length ≤ 64 →
        writes k
          (if k % 2 = 0 then descriptorLine epoch serial (k / 2) g.count e.length e.addr e.data
          else dataLine e.data)
          (if k + 1 < 2 * g.count then .body (k + 1) else .commitLine)) ∧
      (phase = .commitLine →
        writes (2 * g.count) (commitLine epoch serial g.stream g.count g.sig start) .fence) ∧
      (phase = .fence →
        (s.freeTag = none → s.offer .journal = none) ∧
        ∀ t, s.freeTag = some t →
          Amount.fits { wh := 0, wd := 0, rd := 1 } s.lowerAvailable = true →
          EffectOf .arbiterGrant s fun u =>
            s.FenceGranted u t .journal .groupFence (.serial serial) ∧
              u.group? r = some { g with state := .committing } ∧
              (∀ q, q ≠ r → u.group? q = s.group? q) ∧
              u.journal = { s.journal with current := none } ∧ u.staging = s.staging)) ∧
  (∀ (s : State) (r k m : Nat) (g : Group) (e : Entry) (close : Num32), s.GrantsFrom 2 →
      s.mode = .operating → s.apply = some { record := r, next := k } → s.group? r = some g →
      g.members[k]? = some m → s.member? r m = some e → g.closeIntake = some close →
      let passBefore := ∃ x ∈ s.staging.entries, x.isPass = true ∧ lineOf x.addr = lineOf e.addr ∧
        earlier x.intake close = true
      let readBefore := ∃ i rec addr n, s.read? i = some rec ∧ rec.kind = .read addr n ∧
        lineOf addr = lineOf e.addr ∧ earlier rec.intake close = true ∧
        (rec.state = .held ∨ ∃ t, rec.state = .issued t)
      (passBefore ∨ readBefore → s.offer .apply = none) ∧
      (¬passBefore → ¬readBefore →
        Amount.fits { wh := 1, wd := unitsOf e.data.length, rd := 0 } s.lowerAvailable = true →
        EffectOf .arbiterGrant s fun u =>
          u.sent = [.request s.lower.nextTx (.write .inPlace e.addr e.data false)] ∧
            u.staging = { s.staging with
              entries := s.staging.entries.map fun x =>
                if x.isMember r m then { x with kind := .member r m .applied } else x } ∧
            (k + 1 < g.count →
              u.apply = some { record := r, next := k + 1 } ∧ u.groups = s.groups) ∧
            (g.count ≤ k + 1 → u.apply = none ∧ u.group? r = some { g with state := .applied }) ∧
            (∀ q, q ≠ r → u.group? q = s.group? q) ∧ u.reads = s.reads ∧ u.marks = s.marks ∧
            u.journal = s.journal ∧ u.ckpt = s.ckpt ∧ u.tags = s.tags)) ∧
  (∀ (s : State) (f : CkptFlight), s.GrantsFrom 3 → (s.mode = .operating ∨ s.mode = .holdup) →
      s.ckpt.flight = some f →
      (f.phase = .fenceA ∧ f.sentA = true ∨ f.phase = .fenceB ∧ f.sentB = true →
        s.offer .checkpoint = none) ∧
      ∀ t, s.freeTag = some t → Amount.fits { wh := 0, wd := 0, rd := 1 } s.lowerAvailable = true →
        (f.phase = .fenceA → f.sentA = false →
          EffectOf .arbiterGrant s fun u =>
            s.FenceGranted u t .checkpoint .fenceA .none ∧
              u.ckpt = { s.ckpt with flight := some { f with sentA := true } } ∧
              u.groups = s.groups ∧ u.staging = s.staging) ∧
        (f.phase = .fenceB → f.sentB = false →
          EffectOf .arbiterGrant s fun u =>
            s.FenceGranted u t .checkpoint .fenceB .none ∧
              u.ckpt = { s.ckpt with flight := some { f with sentB := true } } ∧
              u.groups = s.groups ∧ u.staging = s.staging)) ∧
  (∀ s : State, s.GrantsFrom 5 → s.mode = .operating →
      let wanted := ∃ i rec bound n, s.read? i = some rec ∧ rec.state = .waiting ∧
        rec.kind = .globalFlush bound (some n) ∧
        (s.marks.durable ≠ n ∧ earlier n s.marks.durable = false) ∧
        s.marks.granted ≠ n ∧ earlier n s.marks.granted = false
      (¬wanted → s.offer .flushFence = none) ∧
      ∀ t, wanted → s.freeTag = some t →
        Amount.fits { wh := 0, wd := 0, rd := 1 } s.lowerAvailable = true →
        EffectOf .arbiterGrant s fun u =>
          s.FenceGranted u t .flush .flushFence .none ∧ u.reads = s.reads ∧ u.groups = s.groups ∧
            u.staging = s.staging ∧ u.journal = s.journal ∧ u.ckpt = s.ckpt) ∧
  (∀ (s : State) (n : Num32), s.GrantsFrom 0 → s.mode = .holdup →
      (∀ e ∈ s.staging.entries, s.sendable e = false) → s.hold.target = some n →
      let short := s.marks.granted ≠ n ∧ earlier n s.marks.granted = false
      (¬short → s.offer .passDrain = none) ∧
      ∀ t, short → s.freeTag = some t →
        Amount.fits { wh := 0, wd := 0, rd := 1 } s.lowerAvailable = true →
        EffectOf .arbiterGrant s fun u =>
          s.FenceGranted u t .holdup .finalFence .none ∧ u.staging = s.staging ∧ u.hold = s.hold ∧
            u.groups = s.groups ∧ u.journal = s.journal ∧ u.ckpt = s.ckpt) ∧
  ∀ (s : State) (c : JournalConfig), s.GrantsFrom 6 → s.mode = .recovering → s.config = some c →
    let line := fun i : Nat => c.base + BitVec.ofNat 40 (64 * i)
    let place := fun p : Pos => line (2 + p.toNat % (c.size / 64 - 2))
    let reads := fun (target : RecTarget) (ref : TagRef) (addr : Addr) =>
      ∀ t, s.freeTag = some t → Amount.fits { wh := 0, wd := 0, rd := 1 } s.lowerAvailable = true →
        EffectOf .arbiterGrant s fun u =>
          u.sent = [.request s.lower.nextTx (.read addr 64 t)] ∧
            u.tag t = .outstanding
              { owner := .recovery, purpose := .read, ref := ref, passCount := none
                detached := false } ∧
            u.recovery = { s.recovery with
              inFlight := s.recovery.inFlight ++ [{ target := target, tag := t, answer := none }] } ∧
            u.marks = s.marks
    let writes := fun (kind : WriteKind) (addr : Addr) (data : List Byte) (next : Recovery) =>
      Amount.fits { wh := 1, wd := unitsOf data.length, rd := 0 } s.lowerAvailable = true →
      EffectOf .arbiterGrant s fun u =>
        u.sent = [.request s.lower.nextTx (.write kind addr data false)] ∧ u.recovery = next ∧
          u.marks = s.marks ∧ u.tags = s.tags ∧ u.staging = s.staging ∧ u.groups = s.groups
    let anchor := fun (a : Anchor) (next : RecPhase) =>
      writes .anchor (line (a.generation.toNat % 2)) (anchorLine a) { s.recovery with phase := next }
    let asked := fun (slot : Nat) (recorded : Option Answer) =>
      recorded ≠ none ∨ ∃ x ∈ s.recovery.inFlight, x.target = .line slot
    let asked0 := asked 0 s.recovery.anchor0
    let asked1 := asked 1 s.recovery.anchor1
    (s.recovery.phase = .anchors →
      (¬asked0 → reads (.line 0) (.line 0) (line 0)) ∧
      (asked0 → ¬asked1 → reads (.line 1) (.line 1) (line 1)) ∧
      (asked0 → asked1 → s.offer .recovery = none)) ∧
    (∀ sc, s.recovery.phase = .scan → s.recovery.scan = some sc →
      let lines := match sc.m with
        | none => 1
        | some m => 2 * m + 1
      let unread := fun o : Nat => o < lines ∧ (sc.judged - sc.g).toNat ≤ o ∧
        ∀ x ∈ s.recovery.inFlight, x.target ≠ .position (sc.g + BitVec.ofNat 48 o)
      (sc.ended = false → ∀ o, unread o → (∀ q, q < o → ¬unread q) →
        let p := sc.g + BitVec.ofNat 48 o
        reads (.position p) (.position p) (place p)) ∧
      ((sc.ended = true ∨ ∀ o, ¬unread o) → s.offer .recovery = none)) ∧
    (∀ sc e m, s.recovery.phase = .redo → s.recovery.scan = some sc →
      sc.buffer[sc.nextRedo]? = some e → sc.m = some m →
      (sc.nextRedo + 1 < m →
        writes .redo e.target e.data { s.recovery with
          scan := some { sc with nextRedo := sc.nextRedo + 1 } }) ∧
      (m ≤ sc.nextRedo + 1 → sc.ended = false → s.recovery.inFlight = [] →
        let g := sc.g + BitVec.ofNat 48 (2 * m + 1)
        let noRoom := decide (c.size / 64 - 2 ≤ (g - sc.sel.tail).toNat + 2)
        writes .redo e.target e.data { s.recovery with
          phase := if noRoom then .fence1 else .scan
          replayed := s.recovery.replayed + 1
          scan := some { sc with
            g := g, s := sc.s + 1#32, m := none, sig := 0#16, judged := g, buffer := []
            nextRedo := 0, ended := noRoom } })) ∧
    (s.recovery.phase = .fence1 ∨ s.recovery.phase = .fence2 ∨ s.recovery.phase = .freshFence →
      (s.recovery.fenceOut = true → s.offer .recovery = none) ∧
      ∀ t, s.recovery.fenceOut = false → s.freeTag = some t →
        Amount.fits { wh := 0, wd := 0, rd := 1 } s.lowerAvailable = true →
        EffectOf .arbiterGrant s fun u =>
          s.FenceGranted u t .recovery .recoveryFence .none ∧
            u.recovery = { s.recovery with fenceOut := true }) ∧
    (∀ sc, s.recovery.phase = .newAnchor → s.recovery.scan = some sc →
      anchor
        { epoch := sc.sel.epoch + 1#32, generation := sc.sel.generation + 1#32, tail := sc.g
          nextSerial := sc.s + 1#32, size := c.size } .fence2) ∧
    (s.recovery.phase = .freshAnchor →
      (s.bestAnchor = none →
        anchor
          { epoch := s.recovery.epochParam.getD 0#32, generation := 1#32, tail := 0#48
            nextSerial := 1#32, size := c.size } .freshFence) ∧
      ∀ slot a, s.bestAnchor = some (slot, a) →
        anchor
          { epoch := a.epoch + 1#32, generation := a.generation + 1#32, tail := 0#48
            nextSerial := 1#32, size := c.size } .freshFence)

/-- A reservation: with no current group the front group of the journal's queue takes its lines at the head
when they are free. When they are not, the space-wait flag is set and nothing is reserved, whether or not a
group is being written; with a current group and lines enough nothing is reserved either and the flag is
clear, which is the model's reading (log 39). The apply engine, idle in OPERATING, takes the
COMMITTED group before whose serial every live group is APPLIED; a checkpoint starts over the run of
APPLIED groups when a trigger holds. -/
def Obligations.JournalWorkIsTakenUp : Prop :=
  (∀ (s : State) (r : Nat) (rest : List Nat) (g : Group) (head : Pos), s.calm →
      (s.mode = .operating ∨ s.mode = .holdup) → s.journal.queue = r :: rest →
      s.journal.head = some head → s.group? r = some g →
      (2 * g.count + 1 ≤ s.freeLines → s.journal.current = none →
        exec .reservation s = .next (State.endEvent
          { s with
            sent := []
            groups := s.groups.set r (some
              { g with state := .journaling, start := some head, lines := some (2 * g.count + 1) })
            journal := { s.journal with
              head := some (head + BitVec.ofNat 48 (2 * g.count + 1))
              queue := rest
              current := some { record := r, phase := .body 0 }
              spaceWait := false } })) ∧
      (2 * g.count + 1 ≤ s.freeLines → s.journal.current ≠ none →
        exec .reservation s = .next (State.endEvent
          { s with sent := [], journal := { s.journal with spaceWait := false } })) ∧
      (s.freeLines < 2 * g.count + 1 →
        exec .reservation s = .next (State.endEvent
          { s with sent := [], journal := { s.journal with spaceWait := true } }))) ∧
  (∀ s : State, s.calm → s.mode = .operating →
      (∀ (r : Nat) (g : Group) (before after : List (Nat × Group)), s.apply = none →
        s.closedGroups = before ++ (r, g) :: after → (∀ p ∈ before, p.2.state = .applied) →
        g.state = .committed → s.group? r = some g →
        exec .applyTakeGroup s = .next (State.endEvent
          { s with
            sent := []
            groups := s.groups.set r (some { g with state := .applying })
            apply := some { record := r, next := 0 } })) ∧
      ∀ (first last : Nat × Group) (run : List (Nat × Group)) (a b : Num32) (start : Pos) (lines : Nat),
        s.ckpt.flight = none → s.candidateRun = first :: run →
        (first :: run).getLast? = some last → first.2.serial = some a → last.2.serial = some b →
        last.2.start = some start → last.2.lines = some lines →
        (s.params.batch ≤ run.length + 1 ∨ s.journal.spaceWait = true ∨ s.redoReport = true ∨
          s.staging.freeEntries < 32 ∨ s.staging.freeUnits < 64 ∨
          ∀ p ∈ s.closedGroups, p.2.state = .applied) →
        exec .checkpointStart s = .next (State.endEvent
          { s with
            sent := []
            ckpt := { s.ckpt with
              flight := some
                { firstSerial := a, lastSerial := b, newTail := start + BitVec.ofNat 48 lines
                  newNextSerial := b + 1#32, phase := .fenceA, sentA := false, sentAnchor := false
                  sentB := false } } }))

/-- The ULP takes the oldest formed completion in UP with room in its retry buffer and no CREDIT unit due:
the completion is sent under the next sequence, its record is freed and its read credit returned. Else
nothing is taken: a due CREDIT unit goes ahead of any completion, and that COMPLETION_TAKEN then waits for
CREDIT_UNIT_SENT, and does not send the unit itself, is the model's choice (log 17). -/
def Obligations.CompletionIsTakenInOrder : Prop :=
  ∀ (s : State) (rest : List Formed) (i : Nat) (rec : ReadRecord) (c : Completion), s.calm →
    (s.upper.state = .up → s.upperRetry.length < 32 → s.credits.due = false →
      let sent : State :=
        { s with
          sent := [.completion s.upper.nextTx c], formed := rest
          upperRetry := s.upperRetry ++ [{ seq := s.upper.nextTx, completion := c }]
          upper := { s.upper with nextTx := s.upper.nextTx + 1#12, replayTimer := true } }
      (s.formed = .record i :: rest → s.read? i = some rec → rec.state = .done c →
        exec .completionTaken s = .next (State.endEvent
          { sent with
            reads := s.reads.set i none
            credits := s.credits.giveBack s.mode.advertises { wh := 0, wd := 0, rd := 1 } })) ∧
      (s.formed = .direct c :: rest → exec .completionTaken s = .next (State.endEvent sent))) ∧
    ((s.upper.state ≠ .up ∨ 32 ≤ s.upperRetry.length ∨ s.credits.due = true ∨ s.formed = []) →
      exec .completionTaken s = .next (State.endEvent { s with sent := [] }))

/-! ### Recovery -/

/-- The second anchor's answer. In a FRESH start the engine goes on to write an anchor. In a normal start
an unreadable one is a MEDIA_ERROR with the line's address; with no valid anchor the part halts with
RECOVERY_FAILED; else the scan begins at the tail of the valid one, of two the one with the higher
generation. -/
def Obligations.RecoverySelectsItsAnchor : Prop :=
  ∀ (bytes : List Byte) (s : State) (info : TagInfo) (c : JournalConfig) (a0 : Answer), s.calm →
    s.lower.state = .up → frameGood .lower bytes = true → frameSeq bytes = s.lower.expRx →
    isCompletion bytes = true → s.tag (completionTag bytes) = .outstanding info →
    info.purpose = .read → info.ref = .line 1 → info.detached = false → s.mode = .recovering →
    s.config = some c → s.recovery.anchor0 = some a0 →
    let a := parseAnswer bytes
    let readable := (a.status = .ok ∨ a.status = .poisoned) ∧ a.data.length = 64
    let v0 := validAnchor c.size 0 a0
    let v1 := validAnchor c.size 1 a
    let scans := fun (slot : Nat) (x : Anchor) =>
      EffectOf (.transactionPacket .lower bytes) s fun u =>
        u.mode = .recovering ∧ u.recovery.phase = .scan ∧ ∃ sc, u.recovery.scan = some sc ∧
          sc.sel =
            { slot := slot, epoch := x.epoch, generation := x.generation, tail := x.tail
              nextSerial := x.nextSerial } ∧
          sc.g = x.tail ∧ sc.s = x.nextSerial ∧ sc.m = none ∧ sc.judged = x.tail ∧ sc.ended = false
    let halts := fun (r : FaultRecord) =>
      After (.transactionPacket .lower bytes) s fun t =>
        t.mode = .halted ∧ t.safeLine = true ∧ t.lower.heldDown = true ∧
          t.faults = pushFault s.faults r ∧ t.journal = s.journal ∧ t.serial = s.serial
    (s.recovery.kind = some .fresh →
      EffectOf (.transactionPacket .lower bytes) s fun u =>
        u.mode = .recovering ∧ u.recovery.phase = .freshAnchor ∧ u.faults = s.faults) ∧
    (s.recovery.kind = some .normal →
      (¬readable →
        halts { s.record .mediaError .recovering with addr := some (c.base + 64#40) }) ∧
      (readable → v0 = none → v1 = none → halts (s.record .recoveryFailed .recovering)) ∧
      (∀ x, readable → v0 = some x → v1 = none → scans 0 x) ∧
      (∀ y, readable → v0 = none → v1 = some y → scans 1 y) ∧
      ∀ x y, readable → v0 = some x → v1 = some y →
        if earlier x.generation y.generation then scans 1 y else scans 0 x)

/-- A line's answer at the judged position, nothing else in flight: an unreadable line is a MEDIA_ERROR;
one that passes by its place in the group moves the scan on, the commit line to REDO; a deviation, or a
group past the range limit, ends the scan at g and the engine goes on to FENCE 1. -/
def Obligations.ScanJudgesTheNextLine : Prop :=
  ∀ (bytes : List Byte) (s : State) (info : TagInfo) (c : JournalConfig) (sc : Scan), s.calm →
    s.lower.state = .up → frameGood .lower bytes = true → frameSeq bytes = s.lower.expRx →
    isCompletion bytes = true → s.tag (completionTag bytes) = .outstanding info →
    info.purpose = .read → info.ref = .position sc.judged → info.detached = false →
    s.mode = .recovering → s.config = some c → s.recovery.phase = .scan →
    s.recovery.scan = some sc → sc.ended = false →
    s.recovery.inFlight =
      [{ target := .position sc.judged, tag := completionTag bytes, answer := none }] →
    let a := parseAnswer bytes
    let readable := (a.status = .ok ∨ a.status = .poisoned) ∧ a.data.length = 64
    let d := (sc.judged - sc.g).toNat
    let leaves := fun (phase : RecPhase) (next : Scan) =>
      EffectOf (.transactionPacket .lower bytes) s fun u =>
        u.mode = .recovering ∧ u.recovery.phase = phase ∧
          u.recovery.scan = some { next with judged := sc.judged + 1#48 } ∧
          u.recovery.inFlight = []
    let ends := EffectOf (.transactionPacket .lower bytes) s fun u =>
      u.mode = .recovering ∧ u.recovery.phase = .fence1 ∧ u.recovery.inFlight = [] ∧
        ∃ sc', u.recovery.scan = some sc' ∧ sc'.ended = true ∧ sc'.g = sc.g ∧ sc'.s = sc.s
    let commitNext := ∃ m, sc.m = some m ∧ 2 * m ≤ d
    (¬readable →
      After (.transactionPacket .lower bytes) s fun t =>
        t.mode = .halted ∧ t.faults = pushFault s.faults
          { s.record .mediaError .recovering with
            addr := some (c.base +
              BitVec.ofNat 40 (64 * (2 + sc.judged.toNat % (c.size / 64 - 2)))) }) ∧
    (readable → commitNext →
      if sc.commitGood (sc.m.getD 0) a then leaves .redo sc else ends) ∧
    (readable → ¬commitNext → d % 2 = 1 →
      if sc.dataGood (d / 2) a then leaves .scan (sc.takeData (d / 2) a.data) else ends) ∧
    (readable → ¬commitNext → d % 2 = 0 →
      if sc.descriptorGood c (d / 2) a ∧
          ¬(d = 0 ∧ c.size / 64 - 2 ≤ (sc.g - sc.sel.tail).toNat + 2 * byteAt a.data 13) then
        leaves .scan (sc.takeDescriptor (d / 2) a.data)
      else ends)

/-- The last fence of a start completed OK: the journal, the checkpoint unit and the serial counter take
the new anchor's values, RECOVERY_DONE is recorded, the engine is IDLE and the part OPERATING with its
credits advertised. That every item of the engine beside its phase is absent or empty in IDLE is the model's
reading (log 31). -/
def Obligations.RecoveryEndsInOperating : Prop :=
  ∀ (bytes : List Byte) (s : State) (info : TagInfo) (c : JournalConfig), s.calm →
    s.lower.state = .up → frameGood .lower bytes = true → frameSeq bytes = s.lower.expRx →
    isCompletion bytes = true → s.tag (completionTag bytes) = .outstanding info →
    info.purpose = .recoveryFence → info.detached = false → (parseAnswer bytes).status = .ok →
    s.mode = .recovering → s.config = some c →
    let done := fun (epoch generation : Num32) (position : Pos) (serial : Num32) (r : FaultRecord) =>
      EffectOf (.transactionPacket .lower bytes) s fun u =>
        u.mode = .operating ∧ u.safeLine = false ∧
          u.journal =
            { head := some position, epoch := some epoch, queue := [], current := none
              spaceWait := false } ∧
          u.ckpt =
            { tail := some position, generation := some generation
              slot := some (generation.toNat % 2), flight := none } ∧
          u.serial = some serial ∧ u.recovery = Recovery.idle ∧
          u.credits =
            { s.credits with limit := s.credits.limit.raise s.credits.pool, pool := .zero
                             due := true } ∧
          u.faults = pushFault s.faults
            { r with
              addr := some (c.base +
                BitVec.ofNat 40 (64 * (2 + position.toNat % (c.size / 64 - 2)))) }
    (∀ sc, s.recovery.phase = .fence2 → s.recovery.scan = some sc →
      done (sc.sel.epoch + 1#32) (sc.sel.generation + 1#32) sc.g (sc.s + 1#32)
        { s.record .recoveryDone .recovering with
          count := some s.recovery.replayed, serial := some sc.s }) ∧
    (s.recovery.phase = .freshFence → s.bestAnchor = none →
      done (s.recovery.epochParam.getD 0#32) 1#32 0#48 1#32
        { s.record .recoveryDone .recovering with count := some 0 }) ∧
    ∀ slot a, s.recovery.phase = .freshFence → s.bestAnchor = some (slot, a) →
      done (a.epoch + 1#32) (a.generation + 1#32) 0#48 1#32
        { s.record .recoveryDone .recovering with count := some 0 }

/-! ### Formats -/

/-- An anchor line the part writes is 64 bytes with a good check and reads back as that anchor; a link unit
the part sends reads back as that unit. A completion and a lower-link request of at most 64 data bytes are
good packets of their size under their sequence: a completion's tag, status, length and data, and a request's
kind, address, length, poison flag, tag and data, stand in their places, and what the part sends as zero is
zero. That the bits chapter 11 calls ignored or does not name are sent as 0 is the model's choice (log 43). A
write's tag byte is the free value of log 36. -/
def Obligations.SentFormatsReadBack : Prop :=
  (∀ a : Anchor, a.size < 2 ^ 32 →
      (anchorLine a).length = 64 ∧ recordGood (anchorLine a) = true ∧ byteAt (anchorLine a) 0 = 0xA3 ∧
        parseAnchor (anchorLine a) = a) ∧
  (∀ (kind : TrainKind) (reply : Bool) (limits : Limits) (seq : Seq),
      parseInit (unitBytes (.init kind reply limits)) = .good (.init kind reply limits) ∧
        parseAck (unitBytes (.ack seq)) = .good (.ack seq) ∧
        parseNak (unitBytes (.nak seq)) = .good (.nak seq) ∧
        parseCredit (unitBytes (.credit limits)) = .good (.credit limits)) ∧
  (∀ (seq : Seq) (c : Completion), c.data.length ≤ 64 →
      let bytes := completionBytes seq c
      bytes.length = 19 + c.data.length ∧ frameGood .upper bytes = true ∧ frameSeq bytes = seq ∧
        byteAt bytes 3 = 0x08 ∧ byteAt bytes 4 = c.tag.toNat ∧
        byteAt bytes 5 = (match c.status with
          | .ok => 0
          | .refused => 1
          | .denied => 2
          | .poisoned => 3
          | .failed => 4
          | .lost => 5) ∧
        byteAt bytes 6 = c.data.length ∧ (∀ i, 7 ≤ i → i < 15 → byteAt bytes i = 0) ∧
        frameData bytes = c.data) ∧
  (∀ (seq : Seq) (kind : WriteKind) (addr : Addr) (data : List Byte) (poison : Bool),
      data.length ≤ 64 →
      let bytes := requestBytes seq (.write kind addr data poison)
      bytes.length = 19 + data.length ∧ frameGood .lower bytes = true ∧ frameSeq bytes = seq ∧
        byteAt bytes 3 = 2 ∧ byteAt bytes 11 = (if poison then 4 else 0) ∧
        { parseRequest bytes with tag := 0#6 } =
          { kind := .write, tag := 0#6, addr := addr, length := data.length, group := false
            close := false, poison := poison, stream := 0, count := 0, sig := 0#16, data := data }) ∧
  (∀ (seq : Seq) (addr : Addr) (length tag : Nat), length ≤ 64 → tag < 32 →
      let bytes := requestBytes seq (.read addr length tag)
      bytes.length = 19 ∧ frameGood .lower bytes = true ∧ frameSeq bytes = seq ∧
        byteAt bytes 3 = 1 ∧ byteAt bytes 4 = tag ∧ byteAt bytes 11 = 0 ∧
        parseRequest bytes =
          { kind := .read, tag := BitVec.ofNat 6 tag, addr := addr, length := length, group := false
            close := false, poison := false, stream := 0, count := 0, sig := 0#16, data := [] }) ∧
  ∀ (seq : Seq) (tag : Nat), tag < 32 →
    let bytes := requestBytes seq (.fence tag)
    bytes.length = 19 ∧ frameGood .lower bytes = true ∧ frameSeq bytes = seq ∧
      byteAt bytes 3 = 3 ∧ byteAt bytes 4 = tag ∧ ∀ i, 5 ≤ i → i < 15 → byteAt bytes i = 0

/-- A group the part has journaled is accepted by the scan that expects it: each descriptor, with the data
line it covers, and the commit line. -/
def Obligations.JournaledGroupIsAcceptedByTheScan : Prop :=
  ∀ (sc : Scan) (c : JournalConfig) (k m length stream : Nat) (target : Addr) (data : List Byte),
    (k < m → m ≤ 64 → (∀ n ∈ sc.m, n = m) → length = data.length → 1 ≤ length → length ≤ 64 →
      c.targetGood target length = true →
      let line := descriptorLine sc.sel.epoch sc.s k m length target data
      sc.descriptorGood c k { status := .ok, data := line } = true ∧
        (sc.buffer.length = k →
          (sc.takeDescriptor k line).m = some m ∧
            (sc.takeDescriptor k line).sig =
              (if k = 0 then 0#16 else sc.sig) + BitVec.ofNat 16 (lineOf target) ∧
            (sc.takeDescriptor k line).dataGood k { status := .ok, data := dataLine data } = true ∧
            ∃ e, ((sc.takeDescriptor k line).takeData k (dataLine data)).buffer = sc.buffer ++ [e] ∧
              e.target = target ∧ e.length = length ∧ e.data = data)) ∧
    (m ≤ 64 → stream < 8 →
      sc.commitGood m
        { status := .ok, data := commitLine sc.sel.epoch sc.s stream m sc.sig sc.g } = true)

/-! ### Invariants of every step -/

/-- Power-on reset's state satisfies every invariant below. -/
def Obligations.InvariantsHoldAtReset : Prop :=
  State.reset.linesGood ∧ State.reset.sized ∧ State.reset.modeGood ∧ State.reset.portsGood ∧
    State.reset.creditGood

/-- The SAFE line is asserted exactly in SAFE and HALTED, ALERT_N follows the fault list, and the list holds
at most 32 records: every step keeps it. -/
def Obligations.StepKeepsTheLines : Prop :=
  ∀ s t : State, s.linesGood → step s = .next t → t.linesGood

/-- Two invariants every step keeps. The lower link is held DOWN exactly in HALTED, with its hold timer
stopped, and the budget timer runs exactly in HOLDUP. Both port records stay in order. -/
def Obligations.StepKeepsModesAndPortsInOrder : Prop :=
  (∀ s t : State, s.modeGood → step s = .next t → t.modeGood) ∧
  (∀ s t : State, s.portsGood → step s = .next t → t.portsGood)

/-- The credit law: resources in use, reservations in the intake queue, return pools and unconsumed
advertised credits make up 128 WH, 256 WD and 32 RD, through every step. -/
def Obligations.StepKeepsTheCreditBalance : Prop :=
  ∀ s t : State, s.creditGood → step s = .next t → t.creditGood
end

