-- ==== Sys2Proof/Laws/State.lean ====
section
/-! SUPPORT. One lemma per field per named update: what each primitive operation writes, and that it
leaves every other field as it was. All hold by computation. -/

namespace Sys2Proof.Machine

variable (s : State)

/-! ### emit -/

@[simp] theorem State.emit_pending (u : Sent) : (s.emit u).pending = s.pending := rfl
@[simp] theorem State.emit_pfwAsserted (u : Sent) : (s.emit u).pfwAsserted = s.pfwAsserted := rfl
@[simp] theorem State.emit_safeLine (u : Sent) : (s.emit u).safeLine = s.safeLine := rfl
@[simp] theorem State.emit_alert (u : Sent) : (s.emit u).alert = s.alert := rfl
@[simp] theorem State.emit_i2cAddress (u : Sent) : (s.emit u).i2cAddress = s.i2cAddress := rfl
@[simp] theorem State.emit_sent (u : Sent) : (s.emit u).sent = s.sent ++ [u] := rfl
@[simp] theorem State.emit_mode (u : Sent) : (s.emit u).mode = s.mode := rfl
@[simp] theorem State.emit_budgetTimer (u : Sent) : (s.emit u).budgetTimer = s.budgetTimer := rfl
@[simp] theorem State.emit_hold (u : Sent) : (s.emit u).hold = s.hold := rfl
@[simp] theorem State.emit_queue (u : Sent) : (s.emit u).queue = s.queue := rfl
@[simp] theorem State.emit_intake (u : Sent) : (s.emit u).intake = s.intake := rfl
@[simp] theorem State.emit_windows (u : Sent) : (s.emit u).windows = s.windows := rfl
@[simp] theorem State.emit_groups (u : Sent) : (s.emit u).groups = s.groups := rfl
@[simp] theorem State.emit_streams (u : Sent) : (s.emit u).streams = s.streams := rfl
@[simp] theorem State.emit_serial (u : Sent) : (s.emit u).serial = s.serial := rfl
@[simp] theorem State.emit_staging (u : Sent) : (s.emit u).staging = s.staging := rfl
@[simp] theorem State.emit_config (u : Sent) : (s.emit u).config = s.config := rfl
@[simp] theorem State.emit_journal (u : Sent) : (s.emit u).journal = s.journal := rfl
@[simp] theorem State.emit_apply (u : Sent) : (s.emit u).apply = s.apply := rfl
@[simp] theorem State.emit_ckpt (u : Sent) : (s.emit u).ckpt = s.ckpt := rfl
@[simp] theorem State.emit_reads (u : Sent) : (s.emit u).reads = s.reads := rfl
@[simp] theorem State.emit_formed (u : Sent) : (s.emit u).formed = s.formed := rfl
@[simp] theorem State.emit_marks (u : Sent) : (s.emit u).marks = s.marks := rfl
@[simp] theorem State.emit_recovery (u : Sent) : (s.emit u).recovery = s.recovery := rfl
@[simp] theorem State.emit_upper (u : Sent) : (s.emit u).upper = s.upper := rfl
@[simp] theorem State.emit_lower (u : Sent) : (s.emit u).lower = s.lower := rfl
@[simp] theorem State.emit_upperRetry (u : Sent) : (s.emit u).upperRetry = s.upperRetry := rfl
@[simp] theorem State.emit_lowerRetry (u : Sent) : (s.emit u).lowerRetry = s.lowerRetry := rfl
@[simp] theorem State.emit_credits (u : Sent) : (s.emit u).credits = s.credits := rfl
@[simp] theorem State.emit_lowerCredits (u : Sent) : (s.emit u).lowerCredits = s.lowerCredits := rfl
@[simp] theorem State.emit_tags (u : Sent) : (s.emit u).tags = s.tags := rfl
@[simp] theorem State.emit_holdTimer (u : Sent) : (s.emit u).holdTimer = s.holdTimer := rfl
@[simp] theorem State.emit_robin (u : Sent) : (s.emit u).robin = s.robin := rfl
@[simp] theorem State.emit_claims (u : Sent) : (s.emit u).claims = s.claims := rfl
@[simp] theorem State.emit_params (u : Sent) : (s.emit u).params = s.params := rfl
@[simp] theorem State.emit_pendingEntry (u : Sent) : (s.emit u).pendingEntry = s.pendingEntry := rfl
@[simp] theorem State.emit_response (u : Sent) : (s.emit u).response = s.response := rfl
@[simp] theorem State.emit_faults (u : Sent) : (s.emit u).faults = s.faults := rfl
@[simp] theorem State.emit_faultSeq (u : Sent) : (s.emit u).faultSeq = s.faultSeq := rfl

/-! ### setMode -/

@[simp] theorem State.setMode_pending (m : Mode) : (s.setMode m).pending = s.pending := rfl
@[simp] theorem State.setMode_pfwAsserted (m : Mode) :
    (s.setMode m).pfwAsserted =
      s.pfwAsserted := rfl
@[simp] theorem State.setMode_safeLine (m : Mode) : (s.setMode m).safeLine = m.isSafeLine := rfl
@[simp] theorem State.setMode_alert (m : Mode) : (s.setMode m).alert = s.alert := rfl
@[simp] theorem State.setMode_i2cAddress (m : Mode) : (s.setMode m).i2cAddress = s.i2cAddress := rfl
@[simp] theorem State.setMode_sent (m : Mode) : (s.setMode m).sent = s.sent := rfl
@[simp] theorem State.setMode_mode (m : Mode) : (s.setMode m).mode = m := rfl
@[simp] theorem State.setMode_budgetTimer (m : Mode) :
    (s.setMode m).budgetTimer =
      s.budgetTimer := rfl
@[simp] theorem State.setMode_hold (m : Mode) : (s.setMode m).hold = s.hold := rfl
@[simp] theorem State.setMode_queue (m : Mode) : (s.setMode m).queue = s.queue := rfl
@[simp] theorem State.setMode_intake (m : Mode) : (s.setMode m).intake = s.intake := rfl
@[simp] theorem State.setMode_windows (m : Mode) : (s.setMode m).windows = s.windows := rfl
@[simp] theorem State.setMode_groups (m : Mode) : (s.setMode m).groups = s.groups := rfl
@[simp] theorem State.setMode_streams (m : Mode) : (s.setMode m).streams = s.streams := rfl
@[simp] theorem State.setMode_serial (m : Mode) : (s.setMode m).serial = s.serial := rfl
@[simp] theorem State.setMode_staging (m : Mode) : (s.setMode m).staging = s.staging := rfl
@[simp] theorem State.setMode_config (m : Mode) : (s.setMode m).config = s.config := rfl
@[simp] theorem State.setMode_journal (m : Mode) : (s.setMode m).journal = s.journal := rfl
@[simp] theorem State.setMode_apply (m : Mode) : (s.setMode m).apply = s.apply := rfl
@[simp] theorem State.setMode_ckpt (m : Mode) : (s.setMode m).ckpt = s.ckpt := rfl
@[simp] theorem State.setMode_reads (m : Mode) : (s.setMode m).reads = s.reads := rfl
@[simp] theorem State.setMode_formed (m : Mode) : (s.setMode m).formed = s.formed := rfl
@[simp] theorem State.setMode_marks (m : Mode) : (s.setMode m).marks = s.marks := rfl
@[simp] theorem State.setMode_recovery (m : Mode) : (s.setMode m).recovery = s.recovery := rfl
@[simp] theorem State.setMode_upper (m : Mode) : (s.setMode m).upper = s.upper := rfl
@[simp] theorem State.setMode_lower (m : Mode) : (s.setMode m).lower = s.lower := rfl
@[simp] theorem State.setMode_upperRetry (m : Mode) : (s.setMode m).upperRetry = s.upperRetry := rfl
@[simp] theorem State.setMode_lowerRetry (m : Mode) : (s.setMode m).lowerRetry = s.lowerRetry := rfl
@[simp] theorem State.setMode_credits (m : Mode) : (s.setMode m).credits = s.credits := rfl
@[simp] theorem State.setMode_lowerCredits (m : Mode) :
    (s.setMode m).lowerCredits =
      s.lowerCredits := rfl
@[simp] theorem State.setMode_tags (m : Mode) : (s.setMode m).tags = s.tags := rfl
@[simp] theorem State.setMode_holdTimer (m : Mode) : (s.setMode m).holdTimer = s.holdTimer := rfl
@[simp] theorem State.setMode_robin (m : Mode) : (s.setMode m).robin = s.robin := rfl
@[simp] theorem State.setMode_claims (m : Mode) : (s.setMode m).claims = s.claims := rfl
@[simp] theorem State.setMode_params (m : Mode) : (s.setMode m).params = s.params := rfl
@[simp] theorem State.setMode_pendingEntry (m : Mode) :
    (s.setMode m).pendingEntry =
      s.pendingEntry := rfl
@[simp] theorem State.setMode_response (m : Mode) : (s.setMode m).response = s.response := rfl
@[simp] theorem State.setMode_faults (m : Mode) : (s.setMode m).faults = s.faults := rfl
@[simp] theorem State.setMode_faultSeq (m : Mode) : (s.setMode m).faultSeq = s.faultSeq := rfl

/-! ### appendFaultIn -/

@[simp] theorem State.appendFaultIn_pending (m : Mode) (c : Cause) (f : FaultFields) :
    (s.appendFaultIn m c f).pending =
      s.pending := rfl
@[simp] theorem State.appendFaultIn_pfwAsserted (m : Mode) (c : Cause) (f : FaultFields) :
    (s.appendFaultIn m c f).pfwAsserted =
      s.pfwAsserted := rfl
@[simp] theorem State.appendFaultIn_safeLine (m : Mode) (c : Cause) (f : FaultFields) :
    (s.appendFaultIn m c f).safeLine =
      s.safeLine := rfl
@[simp] theorem State.appendFaultIn_alert (m : Mode) (c : Cause) (f : FaultFields) :
    (s.appendFaultIn m c f).alert =
      true := rfl
@[simp] theorem State.appendFaultIn_i2cAddress (m : Mode) (c : Cause) (f : FaultFields) :
    (s.appendFaultIn m c f).i2cAddress =
      s.i2cAddress := rfl
@[simp] theorem State.appendFaultIn_sent (m : Mode) (c : Cause) (f : FaultFields) :
    (s.appendFaultIn m c f).sent =
      s.sent := rfl
@[simp] theorem State.appendFaultIn_mode (m : Mode) (c : Cause) (f : FaultFields) :
    (s.appendFaultIn m c f).mode =
      s.mode := rfl
@[simp] theorem State.appendFaultIn_budgetTimer (m : Mode) (c : Cause) (f : FaultFields) :
    (s.appendFaultIn m c f).budgetTimer =
      s.budgetTimer := rfl
@[simp] theorem State.appendFaultIn_hold (m : Mode) (c : Cause) (f : FaultFields) :
    (s.appendFaultIn m c f).hold =
      s.hold := rfl
@[simp] theorem State.appendFaultIn_queue (m : Mode) (c : Cause) (f : FaultFields) :
    (s.appendFaultIn m c f).queue =
      s.queue := rfl
@[simp] theorem State.appendFaultIn_intake (m : Mode) (c : Cause) (f : FaultFields) :
    (s.appendFaultIn m c f).intake =
      s.intake := rfl
@[simp] theorem State.appendFaultIn_windows (m : Mode) (c : Cause) (f : FaultFields) :
    (s.appendFaultIn m c f).windows =
      s.windows := rfl
@[simp] theorem State.appendFaultIn_groups (m : Mode) (c : Cause) (f : FaultFields) :
    (s.appendFaultIn m c f).groups =
      s.groups := rfl
@[simp] theorem State.appendFaultIn_streams (m : Mode) (c : Cause) (f : FaultFields) :
    (s.appendFaultIn m c f).streams =
      s.streams := rfl
@[simp] theorem State.appendFaultIn_serial (m : Mode) (c : Cause) (f : FaultFields) :
    (s.appendFaultIn m c f).serial =
      s.serial := rfl
@[simp] theorem State.appendFaultIn_staging (m : Mode) (c : Cause) (f : FaultFields) :
    (s.appendFaultIn m c f).staging =
      s.staging := rfl
@[simp] theorem State.appendFaultIn_config (m : Mode) (c : Cause) (f : FaultFields) :
    (s.appendFaultIn m c f).config =
      s.config := rfl
@[simp] theorem State.appendFaultIn_journal (m : Mode) (c : Cause) (f : FaultFields) :
    (s.appendFaultIn m c f).journal =
      s.journal := rfl
@[simp] theorem State.appendFaultIn_apply (m : Mode) (c : Cause) (f : FaultFields) :
    (s.appendFaultIn m c f).apply =
      s.apply := rfl
@[simp] theorem State.appendFaultIn_ckpt (m : Mode) (c : Cause) (f : FaultFields) :
    (s.appendFaultIn m c f).ckpt =
      s.ckpt := rfl
@[simp] theorem State.appendFaultIn_reads (m : Mode) (c : Cause) (f : FaultFields) :
    (s.appendFaultIn m c f).reads =
      s.reads := rfl
@[simp] theorem State.appendFaultIn_formed (m : Mode) (c : Cause) (f : FaultFields) :
    (s.appendFaultIn m c f).formed =
      s.formed := rfl
@[simp] theorem State.appendFaultIn_marks (m : Mode) (c : Cause) (f : FaultFields) :
    (s.appendFaultIn m c f).marks =
      s.marks := rfl
@[simp] theorem State.appendFaultIn_recovery (m : Mode) (c : Cause) (f : FaultFields) :
    (s.appendFaultIn m c f).recovery =
      s.recovery := rfl
@[simp] theorem State.appendFaultIn_upper (m : Mode) (c : Cause) (f : FaultFields) :
    (s.appendFaultIn m c f).upper =
      s.upper := rfl
@[simp] theorem State.appendFaultIn_lower (m : Mode) (c : Cause) (f : FaultFields) :
    (s.appendFaultIn m c f).lower =
      s.lower := rfl
@[simp] theorem State.appendFaultIn_upperRetry (m : Mode) (c : Cause) (f : FaultFields) :
    (s.appendFaultIn m c f).upperRetry =
      s.upperRetry := rfl
@[simp] theorem State.appendFaultIn_lowerRetry (m : Mode) (c : Cause) (f : FaultFields) :
    (s.appendFaultIn m c f).lowerRetry =
      s.lowerRetry := rfl
@[simp] theorem State.appendFaultIn_credits (m : Mode) (c : Cause) (f : FaultFields) :
    (s.appendFaultIn m c f).credits =
      s.credits := rfl
@[simp] theorem State.appendFaultIn_lowerCredits (m : Mode) (c : Cause) (f : FaultFields) :
    (s.appendFaultIn m c f).lowerCredits =
      s.lowerCredits := rfl
@[simp] theorem State.appendFaultIn_tags (m : Mode) (c : Cause) (f : FaultFields) :
    (s.appendFaultIn m c f).tags =
      s.tags := rfl
@[simp] theorem State.appendFaultIn_holdTimer (m : Mode) (c : Cause) (f : FaultFields) :
    (s.appendFaultIn m c f).holdTimer =
      s.holdTimer := rfl
@[simp] theorem State.appendFaultIn_robin (m : Mode) (c : Cause) (f : FaultFields) :
    (s.appendFaultIn m c f).robin =
      s.robin := rfl
@[simp] theorem State.appendFaultIn_claims (m : Mode) (c : Cause) (f : FaultFields) :
    (s.appendFaultIn m c f).claims =
      s.claims := rfl
@[simp] theorem State.appendFaultIn_params (m : Mode) (c : Cause) (f : FaultFields) :
    (s.appendFaultIn m c f).params =
      s.params := rfl
@[simp] theorem State.appendFaultIn_pendingEntry (m : Mode) (c : Cause) (f : FaultFields) :
    (s.appendFaultIn m c f).pendingEntry =
      s.pendingEntry := rfl
@[simp] theorem State.appendFaultIn_response (m : Mode) (c : Cause) (f : FaultFields) :
    (s.appendFaultIn m c f).response =
      s.response := rfl
@[simp] theorem State.appendFaultIn_faults (m : Mode) (c : Cause) (f : FaultFields) :
    (s.appendFaultIn m c f).faults =
      pushFault s.faults { seq := s.faultSeq, cause := c, mode := m, stream := f.stream, serial := f.serial, addr := f.addr, count := f.count, link := f.link } := rfl
@[simp] theorem State.appendFaultIn_faultSeq (m : Mode) (c : Cause) (f : FaultFields) :
    (s.appendFaultIn m c f).faultSeq =
      s.faultSeq + 1#16 := rfl

/-! ### appendFault -/

@[simp] theorem State.appendFault_pending (c : Cause) (f : FaultFields) :
    (s.appendFault c f).pending =
      s.pending := rfl
@[simp] theorem State.appendFault_pfwAsserted (c : Cause) (f : FaultFields) :
    (s.appendFault c f).pfwAsserted =
      s.pfwAsserted := rfl
@[simp] theorem State.appendFault_safeLine (c : Cause) (f : FaultFields) :
    (s.appendFault c f).safeLine =
      s.safeLine := rfl
@[simp] theorem State.appendFault_alert (c : Cause) (f : FaultFields) :
    (s.appendFault c f).alert =
      true := rfl
@[simp] theorem State.appendFault_i2cAddress (c : Cause) (f : FaultFields) :
    (s.appendFault c f).i2cAddress =
      s.i2cAddress := rfl
@[simp] theorem State.appendFault_sent (c : Cause) (f : FaultFields) :
    (s.appendFault c f).sent =
      s.sent := rfl
@[simp] theorem State.appendFault_mode (c : Cause) (f : FaultFields) :
    (s.appendFault c f).mode =
      s.mode := rfl
@[simp] theorem State.appendFault_budgetTimer (c : Cause) (f : FaultFields) :
    (s.appendFault c f).budgetTimer =
      s.budgetTimer := rfl
@[simp] theorem State.appendFault_hold (c : Cause) (f : FaultFields) :
    (s.appendFault c f).hold =
      s.hold := rfl
@[simp] theorem State.appendFault_queue (c : Cause) (f : FaultFields) :
    (s.appendFault c f).queue =
      s.queue := rfl
@[simp] theorem State.appendFault_intake (c : Cause) (f : FaultFields) :
    (s.appendFault c f).intake =
      s.intake := rfl
@[simp] theorem State.appendFault_windows (c : Cause) (f : FaultFields) :
    (s.appendFault c f).windows =
      s.windows := rfl
@[simp] theorem State.appendFault_groups (c : Cause) (f : FaultFields) :
    (s.appendFault c f).groups =
      s.groups := rfl
@[simp] theorem State.appendFault_streams (c : Cause) (f : FaultFields) :
    (s.appendFault c f).streams =
      s.streams := rfl
@[simp] theorem State.appendFault_serial (c : Cause) (f : FaultFields) :
    (s.appendFault c f).serial =
      s.serial := rfl
@[simp] theorem State.appendFault_staging (c : Cause) (f : FaultFields) :
    (s.appendFault c f).staging =
      s.staging := rfl
@[simp] theorem State.appendFault_config (c : Cause) (f : FaultFields) :
    (s.appendFault c f).config =
      s.config := rfl
@[simp] theorem State.appendFault_journal (c : Cause) (f : FaultFields) :
    (s.appendFault c f).journal =
      s.journal := rfl
@[simp] theorem State.appendFault_apply (c : Cause) (f : FaultFields) :
    (s.appendFault c f).apply =
      s.apply := rfl
@[simp] theorem State.appendFault_ckpt (c : Cause) (f : FaultFields) :
    (s.appendFault c f).ckpt =
      s.ckpt := rfl
@[simp] theorem State.appendFault_reads (c : Cause) (f : FaultFields) :
    (s.appendFault c f).reads =
      s.reads := rfl
@[simp] theorem State.appendFault_formed (c : Cause) (f : FaultFields) :
    (s.appendFault c f).formed =
      s.formed := rfl
@[simp] theorem State.appendFault_marks (c : Cause) (f : FaultFields) :
    (s.appendFault c f).marks =
      s.marks := rfl
@[simp] theorem State.appendFault_recovery (c : Cause) (f : FaultFields) :
    (s.appendFault c f).recovery =
      s.recovery := rfl
@[simp] theorem State.appendFault_upper (c : Cause) (f : FaultFields) :
    (s.appendFault c f).upper =
      s.upper := rfl
@[simp] theorem State.appendFault_lower (c : Cause) (f : FaultFields) :
    (s.appendFault c f).lower =
      s.lower := rfl
@[simp] theorem State.appendFault_upperRetry (c : Cause) (f : FaultFields) :
    (s.appendFault c f).upperRetry =
      s.upperRetry := rfl
@[simp] theorem State.appendFault_lowerRetry (c : Cause) (f : FaultFields) :
    (s.appendFault c f).lowerRetry =
      s.lowerRetry := rfl
@[simp] theorem State.appendFault_credits (c : Cause) (f : FaultFields) :
    (s.appendFault c f).credits =
      s.credits := rfl
@[simp] theorem State.appendFault_lowerCredits (c : Cause) (f : FaultFields) :
    (s.appendFault c f).lowerCredits =
      s.lowerCredits := rfl
@[simp] theorem State.appendFault_tags (c : Cause) (f : FaultFields) :
    (s.appendFault c f).tags =
      s.tags := rfl
@[simp] theorem State.appendFault_holdTimer (c : Cause) (f : FaultFields) :
    (s.appendFault c f).holdTimer =
      s.holdTimer := rfl
@[simp] theorem State.appendFault_robin (c : Cause) (f : FaultFields) :
    (s.appendFault c f).robin =
      s.robin := rfl
@[simp] theorem State.appendFault_claims (c : Cause) (f : FaultFields) :
    (s.appendFault c f).claims =
      s.claims := rfl
@[simp] theorem State.appendFault_params (c : Cause) (f : FaultFields) :
    (s.appendFault c f).params =
      s.params := rfl
@[simp] theorem State.appendFault_pendingEntry (c : Cause) (f : FaultFields) :
    (s.appendFault c f).pendingEntry =
      s.pendingEntry := rfl
@[simp] theorem State.appendFault_response (c : Cause) (f : FaultFields) :
    (s.appendFault c f).response =
      s.response := rfl
@[simp] theorem State.appendFault_faults (c : Cause) (f : FaultFields) :
    (s.appendFault c f).faults =
      pushFault s.faults { seq := s.faultSeq, cause := c, mode := s.mode, stream := f.stream, serial := f.serial, addr := f.addr, count := f.count, link := f.link } := rfl
@[simp] theorem State.appendFault_faultSeq (c : Cause) (f : FaultFields) :
    (s.appendFault c f).faultSeq =
      s.faultSeq + 1#16 := rfl

/-! ### returnCredits -/

@[simp] theorem State.returnCredits_pending (a : Amount) :
    (s.returnCredits a).pending =
      s.pending := rfl
@[simp] theorem State.returnCredits_pfwAsserted (a : Amount) :
    (s.returnCredits a).pfwAsserted =
      s.pfwAsserted := rfl
@[simp] theorem State.returnCredits_safeLine (a : Amount) :
    (s.returnCredits a).safeLine =
      s.safeLine := rfl
@[simp] theorem State.returnCredits_alert (a : Amount) : (s.returnCredits a).alert = s.alert := rfl
@[simp] theorem State.returnCredits_i2cAddress (a : Amount) :
    (s.returnCredits a).i2cAddress =
      s.i2cAddress := rfl
@[simp] theorem State.returnCredits_sent (a : Amount) : (s.returnCredits a).sent = s.sent := rfl
@[simp] theorem State.returnCredits_mode (a : Amount) : (s.returnCredits a).mode = s.mode := rfl
@[simp] theorem State.returnCredits_budgetTimer (a : Amount) :
    (s.returnCredits a).budgetTimer =
      s.budgetTimer := rfl
@[simp] theorem State.returnCredits_hold (a : Amount) : (s.returnCredits a).hold = s.hold := rfl
@[simp] theorem State.returnCredits_queue (a : Amount) : (s.returnCredits a).queue = s.queue := rfl
@[simp] theorem State.returnCredits_intake (a : Amount) :
    (s.returnCredits a).intake =
      s.intake := rfl
@[simp] theorem State.returnCredits_windows (a : Amount) :
    (s.returnCredits a).windows =
      s.windows := rfl
@[simp] theorem State.returnCredits_groups (a : Amount) :
    (s.returnCredits a).groups =
      s.groups := rfl
@[simp] theorem State.returnCredits_streams (a : Amount) :
    (s.returnCredits a).streams =
      s.streams := rfl
@[simp] theorem State.returnCredits_serial (a : Amount) :
    (s.returnCredits a).serial =
      s.serial := rfl
@[simp] theorem State.returnCredits_staging (a : Amount) :
    (s.returnCredits a).staging =
      s.staging := rfl
@[simp] theorem State.returnCredits_config (a : Amount) :
    (s.returnCredits a).config =
      s.config := rfl
@[simp] theorem State.returnCredits_journal (a : Amount) :
    (s.returnCredits a).journal =
      s.journal := rfl
@[simp] theorem State.returnCredits_apply (a : Amount) : (s.returnCredits a).apply = s.apply := rfl
@[simp] theorem State.returnCredits_ckpt (a : Amount) : (s.returnCredits a).ckpt = s.ckpt := rfl
@[simp] theorem State.returnCredits_reads (a : Amount) : (s.returnCredits a).reads = s.reads := rfl
@[simp] theorem State.returnCredits_formed (a : Amount) :
    (s.returnCredits a).formed =
      s.formed := rfl
@[simp] theorem State.returnCredits_marks (a : Amount) : (s.returnCredits a).marks = s.marks := rfl
@[simp] theorem State.returnCredits_recovery (a : Amount) :
    (s.returnCredits a).recovery =
      s.recovery := rfl
@[simp] theorem State.returnCredits_upper (a : Amount) : (s.returnCredits a).upper = s.upper := rfl
@[simp] theorem State.returnCredits_lower (a : Amount) : (s.returnCredits a).lower = s.lower := rfl
@[simp] theorem State.returnCredits_upperRetry (a : Amount) :
    (s.returnCredits a).upperRetry =
      s.upperRetry := rfl
@[simp] theorem State.returnCredits_lowerRetry (a : Amount) :
    (s.returnCredits a).lowerRetry =
      s.lowerRetry := rfl
@[simp] theorem State.returnCredits_credits (a : Amount) :
    (s.returnCredits a).credits =
      s.credits.giveBack s.mode.advertises a := rfl
@[simp] theorem State.returnCredits_lowerCredits (a : Amount) :
    (s.returnCredits a).lowerCredits =
      s.lowerCredits := rfl
@[simp] theorem State.returnCredits_tags (a : Amount) : (s.returnCredits a).tags = s.tags := rfl
@[simp] theorem State.returnCredits_holdTimer (a : Amount) :
    (s.returnCredits a).holdTimer =
      s.holdTimer := rfl
@[simp] theorem State.returnCredits_robin (a : Amount) : (s.returnCredits a).robin = s.robin := rfl
@[simp] theorem State.returnCredits_claims (a : Amount) :
    (s.returnCredits a).claims =
      s.claims := rfl
@[simp] theorem State.returnCredits_params (a : Amount) :
    (s.returnCredits a).params =
      s.params := rfl
@[simp] theorem State.returnCredits_pendingEntry (a : Amount) :
    (s.returnCredits a).pendingEntry =
      s.pendingEntry := rfl
@[simp] theorem State.returnCredits_response (a : Amount) :
    (s.returnCredits a).response =
      s.response := rfl
@[simp] theorem State.returnCredits_faults (a : Amount) :
    (s.returnCredits a).faults =
      s.faults := rfl
@[simp] theorem State.returnCredits_faultSeq (a : Amount) :
    (s.returnCredits a).faultSeq =
      s.faultSeq := rfl

/-! ### modifyGroup -/

@[simp] theorem State.modifyGroup_pending (r : Nat) (f : Group → Group) :
    (s.modifyGroup r f).pending =
      s.pending := rfl
@[simp] theorem State.modifyGroup_pfwAsserted (r : Nat) (f : Group → Group) :
    (s.modifyGroup r f).pfwAsserted =
      s.pfwAsserted := rfl
@[simp] theorem State.modifyGroup_safeLine (r : Nat) (f : Group → Group) :
    (s.modifyGroup r f).safeLine =
      s.safeLine := rfl
@[simp] theorem State.modifyGroup_alert (r : Nat) (f : Group → Group) :
    (s.modifyGroup r f).alert =
      s.alert := rfl
@[simp] theorem State.modifyGroup_i2cAddress (r : Nat) (f : Group → Group) :
    (s.modifyGroup r f).i2cAddress =
      s.i2cAddress := rfl
@[simp] theorem State.modifyGroup_sent (r : Nat) (f : Group → Group) :
    (s.modifyGroup r f).sent =
      s.sent := rfl
@[simp] theorem State.modifyGroup_mode (r : Nat) (f : Group → Group) :
    (s.modifyGroup r f).mode =
      s.mode := rfl
@[simp] theorem State.modifyGroup_budgetTimer (r : Nat) (f : Group → Group) :
    (s.modifyGroup r f).budgetTimer =
      s.budgetTimer := rfl
@[simp] theorem State.modifyGroup_hold (r : Nat) (f : Group → Group) :
    (s.modifyGroup r f).hold =
      s.hold := rfl
@[simp] theorem State.modifyGroup_queue (r : Nat) (f : Group → Group) :
    (s.modifyGroup r f).queue =
      s.queue := rfl
@[simp] theorem State.modifyGroup_intake (r : Nat) (f : Group → Group) :
    (s.modifyGroup r f).intake =
      s.intake := rfl
@[simp] theorem State.modifyGroup_windows (r : Nat) (f : Group → Group) :
    (s.modifyGroup r f).windows =
      s.windows := rfl
@[simp] theorem State.modifyGroup_groups (r : Nat) (f : Group → Group) :
    (s.modifyGroup r f).groups =
      s.groups.modify r (Option.map f) := rfl
@[simp] theorem State.modifyGroup_streams (r : Nat) (f : Group → Group) :
    (s.modifyGroup r f).streams =
      s.streams := rfl
@[simp] theorem State.modifyGroup_serial (r : Nat) (f : Group → Group) :
    (s.modifyGroup r f).serial =
      s.serial := rfl
@[simp] theorem State.modifyGroup_staging (r : Nat) (f : Group → Group) :
    (s.modifyGroup r f).staging =
      s.staging := rfl
@[simp] theorem State.modifyGroup_config (r : Nat) (f : Group → Group) :
    (s.modifyGroup r f).config =
      s.config := rfl
@[simp] theorem State.modifyGroup_journal (r : Nat) (f : Group → Group) :
    (s.modifyGroup r f).journal =
      s.journal := rfl
@[simp] theorem State.modifyGroup_apply (r : Nat) (f : Group → Group) :
    (s.modifyGroup r f).apply =
      s.apply := rfl
@[simp] theorem State.modifyGroup_ckpt (r : Nat) (f : Group → Group) :
    (s.modifyGroup r f).ckpt =
      s.ckpt := rfl
@[simp] theorem State.modifyGroup_reads (r : Nat) (f : Group → Group) :
    (s.modifyGroup r f).reads =
      s.reads := rfl
@[simp] theorem State.modifyGroup_formed (r : Nat) (f : Group → Group) :
    (s.modifyGroup r f).formed =
      s.formed := rfl
@[simp] theorem State.modifyGroup_marks (r : Nat) (f : Group → Group) :
    (s.modifyGroup r f).marks =
      s.marks := rfl
@[simp] theorem State.modifyGroup_recovery (r : Nat) (f : Group → Group) :
    (s.modifyGroup r f).recovery =
      s.recovery := rfl
@[simp] theorem State.modifyGroup_upper (r : Nat) (f : Group → Group) :
    (s.modifyGroup r f).upper =
      s.upper := rfl
@[simp] theorem State.modifyGroup_lower (r : Nat) (f : Group → Group) :
    (s.modifyGroup r f).lower =
      s.lower := rfl
@[simp] theorem State.modifyGroup_upperRetry (r : Nat) (f : Group → Group) :
    (s.modifyGroup r f).upperRetry =
      s.upperRetry := rfl
@[simp] theorem State.modifyGroup_lowerRetry (r : Nat) (f : Group → Group) :
    (s.modifyGroup r f).lowerRetry =
      s.lowerRetry := rfl
@[simp] theorem State.modifyGroup_credits (r : Nat) (f : Group → Group) :
    (s.modifyGroup r f).credits =
      s.credits := rfl
@[simp] theorem State.modifyGroup_lowerCredits (r : Nat) (f : Group → Group) :
    (s.modifyGroup r f).lowerCredits =
      s.lowerCredits := rfl
@[simp] theorem State.modifyGroup_tags (r : Nat) (f : Group → Group) :
    (s.modifyGroup r f).tags =
      s.tags := rfl
@[simp] theorem State.modifyGroup_holdTimer (r : Nat) (f : Group → Group) :
    (s.modifyGroup r f).holdTimer =
      s.holdTimer := rfl
@[simp] theorem State.modifyGroup_robin (r : Nat) (f : Group → Group) :
    (s.modifyGroup r f).robin =
      s.robin := rfl
@[simp] theorem State.modifyGroup_claims (r : Nat) (f : Group → Group) :
    (s.modifyGroup r f).claims =
      s.claims := rfl
@[simp] theorem State.modifyGroup_params (r : Nat) (f : Group → Group) :
    (s.modifyGroup r f).params =
      s.params := rfl
@[simp] theorem State.modifyGroup_pendingEntry (r : Nat) (f : Group → Group) :
    (s.modifyGroup r f).pendingEntry =
      s.pendingEntry := rfl
@[simp] theorem State.modifyGroup_response (r : Nat) (f : Group → Group) :
    (s.modifyGroup r f).response =
      s.response := rfl
@[simp] theorem State.modifyGroup_faults (r : Nat) (f : Group → Group) :
    (s.modifyGroup r f).faults =
      s.faults := rfl
@[simp] theorem State.modifyGroup_faultSeq (r : Nat) (f : Group → Group) :
    (s.modifyGroup r f).faultSeq =
      s.faultSeq := rfl

/-! ### freeGroup -/

@[simp] theorem State.freeGroup_pending (r : Nat) : (s.freeGroup r).pending = s.pending := rfl
@[simp] theorem State.freeGroup_pfwAsserted (r : Nat) :
    (s.freeGroup r).pfwAsserted =
      s.pfwAsserted := rfl
@[simp] theorem State.freeGroup_safeLine (r : Nat) : (s.freeGroup r).safeLine = s.safeLine := rfl
@[simp] theorem State.freeGroup_alert (r : Nat) : (s.freeGroup r).alert = s.alert := rfl
@[simp] theorem State.freeGroup_i2cAddress (r : Nat) :
    (s.freeGroup r).i2cAddress =
      s.i2cAddress := rfl
@[simp] theorem State.freeGroup_sent (r : Nat) : (s.freeGroup r).sent = s.sent := rfl
@[simp] theorem State.freeGroup_mode (r : Nat) : (s.freeGroup r).mode = s.mode := rfl
@[simp] theorem State.freeGroup_budgetTimer (r : Nat) :
    (s.freeGroup r).budgetTimer =
      s.budgetTimer := rfl
@[simp] theorem State.freeGroup_hold (r : Nat) : (s.freeGroup r).hold = s.hold := rfl
@[simp] theorem State.freeGroup_queue (r : Nat) : (s.freeGroup r).queue = s.queue := rfl
@[simp] theorem State.freeGroup_intake (r : Nat) : (s.freeGroup r).intake = s.intake := rfl
@[simp] theorem State.freeGroup_windows (r : Nat) : (s.freeGroup r).windows = s.windows := rfl
@[simp] theorem State.freeGroup_groups (r : Nat) :
    (s.freeGroup r).groups =
      s.groups.set r none := rfl
@[simp] theorem State.freeGroup_streams (r : Nat) : (s.freeGroup r).streams = s.streams := rfl
@[simp] theorem State.freeGroup_serial (r : Nat) : (s.freeGroup r).serial = s.serial := rfl
@[simp] theorem State.freeGroup_staging (r : Nat) : (s.freeGroup r).staging = s.staging := rfl
@[simp] theorem State.freeGroup_config (r : Nat) : (s.freeGroup r).config = s.config := rfl
@[simp] theorem State.freeGroup_journal (r : Nat) : (s.freeGroup r).journal = s.journal := rfl
@[simp] theorem State.freeGroup_apply (r : Nat) : (s.freeGroup r).apply = s.apply := rfl
@[simp] theorem State.freeGroup_ckpt (r : Nat) : (s.freeGroup r).ckpt = s.ckpt := rfl
@[simp] theorem State.freeGroup_reads (r : Nat) : (s.freeGroup r).reads = s.reads := rfl
@[simp] theorem State.freeGroup_formed (r : Nat) : (s.freeGroup r).formed = s.formed := rfl
@[simp] theorem State.freeGroup_marks (r : Nat) : (s.freeGroup r).marks = s.marks := rfl
@[simp] theorem State.freeGroup_recovery (r : Nat) : (s.freeGroup r).recovery = s.recovery := rfl
@[simp] theorem State.freeGroup_upper (r : Nat) : (s.freeGroup r).upper = s.upper := rfl
@[simp] theorem State.freeGroup_lower (r : Nat) : (s.freeGroup r).lower = s.lower := rfl
@[simp] theorem State.freeGroup_upperRetry (r : Nat) :
    (s.freeGroup r).upperRetry =
      s.upperRetry := rfl
@[simp] theorem State.freeGroup_lowerRetry (r : Nat) :
    (s.freeGroup r).lowerRetry =
      s.lowerRetry := rfl
@[simp] theorem State.freeGroup_credits (r : Nat) : (s.freeGroup r).credits = s.credits := rfl
@[simp] theorem State.freeGroup_lowerCredits (r : Nat) :
    (s.freeGroup r).lowerCredits =
      s.lowerCredits := rfl
@[simp] theorem State.freeGroup_tags (r : Nat) : (s.freeGroup r).tags = s.tags := rfl
@[simp] theorem State.freeGroup_holdTimer (r : Nat) : (s.freeGroup r).holdTimer = s.holdTimer := rfl
@[simp] theorem State.freeGroup_robin (r : Nat) : (s.freeGroup r).robin = s.robin := rfl
@[simp] theorem State.freeGroup_claims (r : Nat) : (s.freeGroup r).claims = s.claims := rfl
@[simp] theorem State.freeGroup_params (r : Nat) : (s.freeGroup r).params = s.params := rfl
@[simp] theorem State.freeGroup_pendingEntry (r : Nat) :
    (s.freeGroup r).pendingEntry =
      s.pendingEntry := rfl
@[simp] theorem State.freeGroup_response (r : Nat) : (s.freeGroup r).response = s.response := rfl
@[simp] theorem State.freeGroup_faults (r : Nat) : (s.freeGroup r).faults = s.faults := rfl
@[simp] theorem State.freeGroup_faultSeq (r : Nat) : (s.freeGroup r).faultSeq = s.faultSeq := rfl

/-! ### modifyStream -/

@[simp] theorem State.modifyStream_pending (i : Nat) (f : StreamState → StreamState) :
    (s.modifyStream i f).pending =
      s.pending := rfl
@[simp] theorem State.modifyStream_pfwAsserted (i : Nat) (f : StreamState → StreamState) :
    (s.modifyStream i f).pfwAsserted =
      s.pfwAsserted := rfl
@[simp] theorem State.modifyStream_safeLine (i : Nat) (f : StreamState → StreamState) :
    (s.modifyStream i f).safeLine =
      s.safeLine := rfl
@[simp] theorem State.modifyStream_alert (i : Nat) (f : StreamState → StreamState) :
    (s.modifyStream i f).alert =
      s.alert := rfl
@[simp] theorem State.modifyStream_i2cAddress (i : Nat) (f : StreamState → StreamState) :
    (s.modifyStream i f).i2cAddress =
      s.i2cAddress := rfl
@[simp] theorem State.modifyStream_sent (i : Nat) (f : StreamState → StreamState) :
    (s.modifyStream i f).sent =
      s.sent := rfl
@[simp] theorem State.modifyStream_mode (i : Nat) (f : StreamState → StreamState) :
    (s.modifyStream i f).mode =
      s.mode := rfl
@[simp] theorem State.modifyStream_budgetTimer (i : Nat) (f : StreamState → StreamState) :
    (s.modifyStream i f).budgetTimer =
      s.budgetTimer := rfl
@[simp] theorem State.modifyStream_hold (i : Nat) (f : StreamState → StreamState) :
    (s.modifyStream i f).hold =
      s.hold := rfl
@[simp] theorem State.modifyStream_queue (i : Nat) (f : StreamState → StreamState) :
    (s.modifyStream i f).queue =
      s.queue := rfl
@[simp] theorem State.modifyStream_intake (i : Nat) (f : StreamState → StreamState) :
    (s.modifyStream i f).intake =
      s.intake := rfl
@[simp] theorem State.modifyStream_windows (i : Nat) (f : StreamState → StreamState) :
    (s.modifyStream i f).windows =
      s.windows := rfl
@[simp] theorem State.modifyStream_groups (i : Nat) (f : StreamState → StreamState) :
    (s.modifyStream i f).groups =
      s.groups := rfl
@[simp] theorem State.modifyStream_streams (i : Nat) (f : StreamState → StreamState) :
    (s.modifyStream i f).streams =
      s.streams.modify i f := rfl
@[simp] theorem State.modifyStream_serial (i : Nat) (f : StreamState → StreamState) :
    (s.modifyStream i f).serial =
      s.serial := rfl
@[simp] theorem State.modifyStream_staging (i : Nat) (f : StreamState → StreamState) :
    (s.modifyStream i f).staging =
      s.staging := rfl
@[simp] theorem State.modifyStream_config (i : Nat) (f : StreamState → StreamState) :
    (s.modifyStream i f).config =
      s.config := rfl
@[simp] theorem State.modifyStream_journal (i : Nat) (f : StreamState → StreamState) :
    (s.modifyStream i f).journal =
      s.journal := rfl
@[simp] theorem State.modifyStream_apply (i : Nat) (f : StreamState → StreamState) :
    (s.modifyStream i f).apply =
      s.apply := rfl
@[simp] theorem State.modifyStream_ckpt (i : Nat) (f : StreamState → StreamState) :
    (s.modifyStream i f).ckpt =
      s.ckpt := rfl
@[simp] theorem State.modifyStream_reads (i : Nat) (f : StreamState → StreamState) :
    (s.modifyStream i f).reads =
      s.reads := rfl
@[simp] theorem State.modifyStream_formed (i : Nat) (f : StreamState → StreamState) :
    (s.modifyStream i f).formed =
      s.formed := rfl
@[simp] theorem State.modifyStream_marks (i : Nat) (f : StreamState → StreamState) :
    (s.modifyStream i f).marks =
      s.marks := rfl
@[simp] theorem State.modifyStream_recovery (i : Nat) (f : StreamState → StreamState) :
    (s.modifyStream i f).recovery =
      s.recovery := rfl
@[simp] theorem State.modifyStream_upper (i : Nat) (f : StreamState → StreamState) :
    (s.modifyStream i f).upper =
      s.upper := rfl
@[simp] theorem State.modifyStream_lower (i : Nat) (f : StreamState → StreamState) :
    (s.modifyStream i f).lower =
      s.lower := rfl
@[simp] theorem State.modifyStream_upperRetry (i : Nat) (f : StreamState → StreamState) :
    (s.modifyStream i f).upperRetry =
      s.upperRetry := rfl
@[simp] theorem State.modifyStream_lowerRetry (i : Nat) (f : StreamState → StreamState) :
    (s.modifyStream i f).lowerRetry =
      s.lowerRetry := rfl
@[simp] theorem State.modifyStream_credits (i : Nat) (f : StreamState → StreamState) :
    (s.modifyStream i f).credits =
      s.credits := rfl
@[simp] theorem State.modifyStream_lowerCredits (i : Nat) (f : StreamState → StreamState) :
    (s.modifyStream i f).lowerCredits =
      s.lowerCredits := rfl
@[simp] theorem State.modifyStream_tags (i : Nat) (f : StreamState → StreamState) :
    (s.modifyStream i f).tags =
      s.tags := rfl
@[simp] theorem State.modifyStream_holdTimer (i : Nat) (f : StreamState → StreamState) :
    (s.modifyStream i f).holdTimer =
      s.holdTimer := rfl
@[simp] theorem State.modifyStream_robin (i : Nat) (f : StreamState → StreamState) :
    (s.modifyStream i f).robin =
      s.robin := rfl
@[simp] theorem State.modifyStream_claims (i : Nat) (f : StreamState → StreamState) :
    (s.modifyStream i f).claims =
      s.claims := rfl
@[simp] theorem State.modifyStream_params (i : Nat) (f : StreamState → StreamState) :
    (s.modifyStream i f).params =
      s.params := rfl
@[simp] theorem State.modifyStream_pendingEntry (i : Nat) (f : StreamState → StreamState) :
    (s.modifyStream i f).pendingEntry =
      s.pendingEntry := rfl
@[simp] theorem State.modifyStream_response (i : Nat) (f : StreamState → StreamState) :
    (s.modifyStream i f).response =
      s.response := rfl
@[simp] theorem State.modifyStream_faults (i : Nat) (f : StreamState → StreamState) :
    (s.modifyStream i f).faults =
      s.faults := rfl
@[simp] theorem State.modifyStream_faultSeq (i : Nat) (f : StreamState → StreamState) :
    (s.modifyStream i f).faultSeq =
      s.faultSeq := rfl

/-! ### modifyRead -/

@[simp] theorem State.modifyRead_pending (i : Nat) (f : ReadRecord → ReadRecord) :
    (s.modifyRead i f).pending =
      s.pending := rfl
@[simp] theorem State.modifyRead_pfwAsserted (i : Nat) (f : ReadRecord → ReadRecord) :
    (s.modifyRead i f).pfwAsserted =
      s.pfwAsserted := rfl
@[simp] theorem State.modifyRead_safeLine (i : Nat) (f : ReadRecord → ReadRecord) :
    (s.modifyRead i f).safeLine =
      s.safeLine := rfl
@[simp] theorem State.modifyRead_alert (i : Nat) (f : ReadRecord → ReadRecord) :
    (s.modifyRead i f).alert =
      s.alert := rfl
@[simp] theorem State.modifyRead_i2cAddress (i : Nat) (f : ReadRecord → ReadRecord) :
    (s.modifyRead i f).i2cAddress =
      s.i2cAddress := rfl
@[simp] theorem State.modifyRead_sent (i : Nat) (f : ReadRecord → ReadRecord) :
    (s.modifyRead i f).sent =
      s.sent := rfl
@[simp] theorem State.modifyRead_mode (i : Nat) (f : ReadRecord → ReadRecord) :
    (s.modifyRead i f).mode =
      s.mode := rfl
@[simp] theorem State.modifyRead_budgetTimer (i : Nat) (f : ReadRecord → ReadRecord) :
    (s.modifyRead i f).budgetTimer =
      s.budgetTimer := rfl
@[simp] theorem State.modifyRead_hold (i : Nat) (f : ReadRecord → ReadRecord) :
    (s.modifyRead i f).hold =
      s.hold := rfl
@[simp] theorem State.modifyRead_queue (i : Nat) (f : ReadRecord → ReadRecord) :
    (s.modifyRead i f).queue =
      s.queue := rfl
@[simp] theorem State.modifyRead_intake (i : Nat) (f : ReadRecord → ReadRecord) :
    (s.modifyRead i f).intake =
      s.intake := rfl
@[simp] theorem State.modifyRead_windows (i : Nat) (f : ReadRecord → ReadRecord) :
    (s.modifyRead i f).windows =
      s.windows := rfl
@[simp] theorem State.modifyRead_groups (i : Nat) (f : ReadRecord → ReadRecord) :
    (s.modifyRead i f).groups =
      s.groups := rfl
@[simp] theorem State.modifyRead_streams (i : Nat) (f : ReadRecord → ReadRecord) :
    (s.modifyRead i f).streams =
      s.streams := rfl
@[simp] theorem State.modifyRead_serial (i : Nat) (f : ReadRecord → ReadRecord) :
    (s.modifyRead i f).serial =
      s.serial := rfl
@[simp] theorem State.modifyRead_staging (i : Nat) (f : ReadRecord → ReadRecord) :
    (s.modifyRead i f).staging =
      s.staging := rfl
@[simp] theorem State.modifyRead_config (i : Nat) (f : ReadRecord → ReadRecord) :
    (s.modifyRead i f).config =
      s.config := rfl
@[simp] theorem State.modifyRead_journal (i : Nat) (f : ReadRecord → ReadRecord) :
    (s.modifyRead i f).journal =
      s.journal := rfl
@[simp] theorem State.modifyRead_apply (i : Nat) (f : ReadRecord → ReadRecord) :
    (s.modifyRead i f).apply =
      s.apply := rfl
@[simp] theorem State.modifyRead_ckpt (i : Nat) (f : ReadRecord → ReadRecord) :
    (s.modifyRead i f).ckpt =
      s.ckpt := rfl
@[simp] theorem State.modifyRead_reads (i : Nat) (f : ReadRecord → ReadRecord) :
    (s.modifyRead i f).reads =
      s.reads.modify i (Option.map f) := rfl
@[simp] theorem State.modifyRead_formed (i : Nat) (f : ReadRecord → ReadRecord) :
    (s.modifyRead i f).formed =
      s.formed := rfl
@[simp] theorem State.modifyRead_marks (i : Nat) (f : ReadRecord → ReadRecord) :
    (s.modifyRead i f).marks =
      s.marks := rfl
@[simp] theorem State.modifyRead_recovery (i : Nat) (f : ReadRecord → ReadRecord) :
    (s.modifyRead i f).recovery =
      s.recovery := rfl
@[simp] theorem State.modifyRead_upper (i : Nat) (f : ReadRecord → ReadRecord) :
    (s.modifyRead i f).upper =
      s.upper := rfl
@[simp] theorem State.modifyRead_lower (i : Nat) (f : ReadRecord → ReadRecord) :
    (s.modifyRead i f).lower =
      s.lower := rfl
@[simp] theorem State.modifyRead_upperRetry (i : Nat) (f : ReadRecord → ReadRecord) :
    (s.modifyRead i f).upperRetry =
      s.upperRetry := rfl
@[simp] theorem State.modifyRead_lowerRetry (i : Nat) (f : ReadRecord → ReadRecord) :
    (s.modifyRead i f).lowerRetry =
      s.lowerRetry := rfl
@[simp] theorem State.modifyRead_credits (i : Nat) (f : ReadRecord → ReadRecord) :
    (s.modifyRead i f).credits =
      s.credits := rfl
@[simp] theorem State.modifyRead_lowerCredits (i : Nat) (f : ReadRecord → ReadRecord) :
    (s.modifyRead i f).lowerCredits =
      s.lowerCredits := rfl
@[simp] theorem State.modifyRead_tags (i : Nat) (f : ReadRecord → ReadRecord) :
    (s.modifyRead i f).tags =
      s.tags := rfl
@[simp] theorem State.modifyRead_holdTimer (i : Nat) (f : ReadRecord → ReadRecord) :
    (s.modifyRead i f).holdTimer =
      s.holdTimer := rfl
@[simp] theorem State.modifyRead_robin (i : Nat) (f : ReadRecord → ReadRecord) :
    (s.modifyRead i f).robin =
      s.robin := rfl
@[simp] theorem State.modifyRead_claims (i : Nat) (f : ReadRecord → ReadRecord) :
    (s.modifyRead i f).claims =
      s.claims := rfl
@[simp] theorem State.modifyRead_params (i : Nat) (f : ReadRecord → ReadRecord) :
    (s.modifyRead i f).params =
      s.params := rfl
@[simp] theorem State.modifyRead_pendingEntry (i : Nat) (f : ReadRecord → ReadRecord) :
    (s.modifyRead i f).pendingEntry =
      s.pendingEntry := rfl
@[simp] theorem State.modifyRead_response (i : Nat) (f : ReadRecord → ReadRecord) :
    (s.modifyRead i f).response =
      s.response := rfl
@[simp] theorem State.modifyRead_faults (i : Nat) (f : ReadRecord → ReadRecord) :
    (s.modifyRead i f).faults =
      s.faults := rfl
@[simp] theorem State.modifyRead_faultSeq (i : Nat) (f : ReadRecord → ReadRecord) :
    (s.modifyRead i f).faultSeq =
      s.faultSeq := rfl

/-! ### setTag -/

@[simp] theorem State.setTag_pending (t : Nat) (v : LowerTag) :
    (s.setTag t v).pending =
      s.pending := rfl
@[simp] theorem State.setTag_pfwAsserted (t : Nat) (v : LowerTag) :
    (s.setTag t v).pfwAsserted =
      s.pfwAsserted := rfl
@[simp] theorem State.setTag_safeLine (t : Nat) (v : LowerTag) :
    (s.setTag t v).safeLine =
      s.safeLine := rfl
@[simp] theorem State.setTag_alert (t : Nat) (v : LowerTag) : (s.setTag t v).alert = s.alert := rfl
@[simp] theorem State.setTag_i2cAddress (t : Nat) (v : LowerTag) :
    (s.setTag t v).i2cAddress =
      s.i2cAddress := rfl
@[simp] theorem State.setTag_sent (t : Nat) (v : LowerTag) : (s.setTag t v).sent = s.sent := rfl
@[simp] theorem State.setTag_mode (t : Nat) (v : LowerTag) : (s.setTag t v).mode = s.mode := rfl
@[simp] theorem State.setTag_budgetTimer (t : Nat) (v : LowerTag) :
    (s.setTag t v).budgetTimer =
      s.budgetTimer := rfl
@[simp] theorem State.setTag_hold (t : Nat) (v : LowerTag) : (s.setTag t v).hold = s.hold := rfl
@[simp] theorem State.setTag_queue (t : Nat) (v : LowerTag) : (s.setTag t v).queue = s.queue := rfl
@[simp] theorem State.setTag_intake (t : Nat) (v : LowerTag) :
    (s.setTag t v).intake =
      s.intake := rfl
@[simp] theorem State.setTag_windows (t : Nat) (v : LowerTag) :
    (s.setTag t v).windows =
      s.windows := rfl
@[simp] theorem State.setTag_groups (t : Nat) (v : LowerTag) :
    (s.setTag t v).groups =
      s.groups := rfl
@[simp] theorem State.setTag_streams (t : Nat) (v : LowerTag) :
    (s.setTag t v).streams =
      s.streams := rfl
@[simp] theorem State.setTag_serial (t : Nat) (v : LowerTag) :
    (s.setTag t v).serial =
      s.serial := rfl
@[simp] theorem State.setTag_staging (t : Nat) (v : LowerTag) :
    (s.setTag t v).staging =
      s.staging := rfl
@[simp] theorem State.setTag_config (t : Nat) (v : LowerTag) :
    (s.setTag t v).config =
      s.config := rfl
@[simp] theorem State.setTag_journal (t : Nat) (v : LowerTag) :
    (s.setTag t v).journal =
      s.journal := rfl
@[simp] theorem State.setTag_apply (t : Nat) (v : LowerTag) : (s.setTag t v).apply = s.apply := rfl
@[simp] theorem State.setTag_ckpt (t : Nat) (v : LowerTag) : (s.setTag t v).ckpt = s.ckpt := rfl
@[simp] theorem State.setTag_reads (t : Nat) (v : LowerTag) : (s.setTag t v).reads = s.reads := rfl
@[simp] theorem State.setTag_formed (t : Nat) (v : LowerTag) :
    (s.setTag t v).formed =
      s.formed := rfl
@[simp] theorem State.setTag_marks (t : Nat) (v : LowerTag) : (s.setTag t v).marks = s.marks := rfl
@[simp] theorem State.setTag_recovery (t : Nat) (v : LowerTag) :
    (s.setTag t v).recovery =
      s.recovery := rfl
@[simp] theorem State.setTag_upper (t : Nat) (v : LowerTag) : (s.setTag t v).upper = s.upper := rfl
@[simp] theorem State.setTag_lower (t : Nat) (v : LowerTag) : (s.setTag t v).lower = s.lower := rfl
@[simp] theorem State.setTag_upperRetry (t : Nat) (v : LowerTag) :
    (s.setTag t v).upperRetry =
      s.upperRetry := rfl
@[simp] theorem State.setTag_lowerRetry (t : Nat) (v : LowerTag) :
    (s.setTag t v).lowerRetry =
      s.lowerRetry := rfl
@[simp] theorem State.setTag_credits (t : Nat) (v : LowerTag) :
    (s.setTag t v).credits =
      s.credits := rfl
@[simp] theorem State.setTag_lowerCredits (t : Nat) (v : LowerTag) :
    (s.setTag t v).lowerCredits =
      s.lowerCredits := rfl
@[simp] theorem State.setTag_tags (t : Nat) (v : LowerTag) :
    (s.setTag t v).tags =
      s.tags.set t v := rfl
@[simp] theorem State.setTag_holdTimer (t : Nat) (v : LowerTag) :
    (s.setTag t v).holdTimer =
      s.holdTimer := rfl
@[simp] theorem State.setTag_robin (t : Nat) (v : LowerTag) : (s.setTag t v).robin = s.robin := rfl
@[simp] theorem State.setTag_claims (t : Nat) (v : LowerTag) :
    (s.setTag t v).claims =
      s.claims := rfl
@[simp] theorem State.setTag_params (t : Nat) (v : LowerTag) :
    (s.setTag t v).params =
      s.params := rfl
@[simp] theorem State.setTag_pendingEntry (t : Nat) (v : LowerTag) :
    (s.setTag t v).pendingEntry =
      s.pendingEntry := rfl
@[simp] theorem State.setTag_response (t : Nat) (v : LowerTag) :
    (s.setTag t v).response =
      s.response := rfl
@[simp] theorem State.setTag_faults (t : Nat) (v : LowerTag) :
    (s.setTag t v).faults =
      s.faults := rfl
@[simp] theorem State.setTag_faultSeq (t : Nat) (v : LowerTag) :
    (s.setTag t v).faultSeq =
      s.faultSeq := rfl

/-! ### stage -/

@[simp] theorem State.stage_pending (e : Entry) : (s.stage e).pending = s.pending := rfl
@[simp] theorem State.stage_pfwAsserted (e : Entry) : (s.stage e).pfwAsserted = s.pfwAsserted := rfl
@[simp] theorem State.stage_safeLine (e : Entry) : (s.stage e).safeLine = s.safeLine := rfl
@[simp] theorem State.stage_alert (e : Entry) : (s.stage e).alert = s.alert := rfl
@[simp] theorem State.stage_i2cAddress (e : Entry) : (s.stage e).i2cAddress = s.i2cAddress := rfl
@[simp] theorem State.stage_sent (e : Entry) : (s.stage e).sent = s.sent := rfl
@[simp] theorem State.stage_mode (e : Entry) : (s.stage e).mode = s.mode := rfl
@[simp] theorem State.stage_budgetTimer (e : Entry) : (s.stage e).budgetTimer = s.budgetTimer := rfl
@[simp] theorem State.stage_hold (e : Entry) : (s.stage e).hold = s.hold := rfl
@[simp] theorem State.stage_queue (e : Entry) : (s.stage e).queue = s.queue := rfl
@[simp] theorem State.stage_intake (e : Entry) : (s.stage e).intake = s.intake := rfl
@[simp] theorem State.stage_windows (e : Entry) : (s.stage e).windows = s.windows := rfl
@[simp] theorem State.stage_groups (e : Entry) : (s.stage e).groups = s.groups := rfl
@[simp] theorem State.stage_streams (e : Entry) : (s.stage e).streams = s.streams := rfl
@[simp] theorem State.stage_serial (e : Entry) : (s.stage e).serial = s.serial := rfl
@[simp] theorem State.stage_staging (e : Entry) :
    (s.stage e).staging =
      { entries := s.staging.entries ++ [e], freeEntries := s.staging.freeEntries - 1, freeUnits := s.staging.freeUnits - unitsOf e.length } := rfl
@[simp] theorem State.stage_config (e : Entry) : (s.stage e).config = s.config := rfl
@[simp] theorem State.stage_journal (e : Entry) : (s.stage e).journal = s.journal := rfl
@[simp] theorem State.stage_apply (e : Entry) : (s.stage e).apply = s.apply := rfl
@[simp] theorem State.stage_ckpt (e : Entry) : (s.stage e).ckpt = s.ckpt := rfl
@[simp] theorem State.stage_reads (e : Entry) : (s.stage e).reads = s.reads := rfl
@[simp] theorem State.stage_formed (e : Entry) : (s.stage e).formed = s.formed := rfl
@[simp] theorem State.stage_marks (e : Entry) : (s.stage e).marks = s.marks := rfl
@[simp] theorem State.stage_recovery (e : Entry) : (s.stage e).recovery = s.recovery := rfl
@[simp] theorem State.stage_upper (e : Entry) : (s.stage e).upper = s.upper := rfl
@[simp] theorem State.stage_lower (e : Entry) : (s.stage e).lower = s.lower := rfl
@[simp] theorem State.stage_upperRetry (e : Entry) : (s.stage e).upperRetry = s.upperRetry := rfl
@[simp] theorem State.stage_lowerRetry (e : Entry) : (s.stage e).lowerRetry = s.lowerRetry := rfl
@[simp] theorem State.stage_credits (e : Entry) : (s.stage e).credits = s.credits := rfl
@[simp] theorem State.stage_lowerCredits (e : Entry) :
    (s.stage e).lowerCredits =
      s.lowerCredits := rfl
@[simp] theorem State.stage_tags (e : Entry) : (s.stage e).tags = s.tags := rfl
@[simp] theorem State.stage_holdTimer (e : Entry) : (s.stage e).holdTimer = s.holdTimer := rfl
@[simp] theorem State.stage_robin (e : Entry) : (s.stage e).robin = s.robin := rfl
@[simp] theorem State.stage_claims (e : Entry) : (s.stage e).claims = s.claims := rfl
@[simp] theorem State.stage_params (e : Entry) : (s.stage e).params = s.params := rfl
@[simp] theorem State.stage_pendingEntry (e : Entry) :
    (s.stage e).pendingEntry =
      s.pendingEntry := rfl
@[simp] theorem State.stage_response (e : Entry) : (s.stage e).response = s.response := rfl
@[simp] theorem State.stage_faults (e : Entry) : (s.stage e).faults = s.faults := rfl
@[simp] theorem State.stage_faultSeq (e : Entry) : (s.stage e).faultSeq = s.faultSeq := rfl

/-! ### mapEntries -/

@[simp] theorem State.mapEntries_pending (p : Entry → Bool) (f : EntryKind → EntryKind) :
    (s.mapEntries p f).pending =
      s.pending := rfl
@[simp] theorem State.mapEntries_pfwAsserted (p : Entry → Bool) (f : EntryKind → EntryKind) :
    (s.mapEntries p f).pfwAsserted =
      s.pfwAsserted := rfl
@[simp] theorem State.mapEntries_safeLine (p : Entry → Bool) (f : EntryKind → EntryKind) :
    (s.mapEntries p f).safeLine =
      s.safeLine := rfl
@[simp] theorem State.mapEntries_alert (p : Entry → Bool) (f : EntryKind → EntryKind) :
    (s.mapEntries p f).alert =
      s.alert := rfl
@[simp] theorem State.mapEntries_i2cAddress (p : Entry → Bool) (f : EntryKind → EntryKind) :
    (s.mapEntries p f).i2cAddress =
      s.i2cAddress := rfl
@[simp] theorem State.mapEntries_sent (p : Entry → Bool) (f : EntryKind → EntryKind) :
    (s.mapEntries p f).sent =
      s.sent := rfl
@[simp] theorem State.mapEntries_mode (p : Entry → Bool) (f : EntryKind → EntryKind) :
    (s.mapEntries p f).mode =
      s.mode := rfl
@[simp] theorem State.mapEntries_budgetTimer (p : Entry → Bool) (f : EntryKind → EntryKind) :
    (s.mapEntries p f).budgetTimer =
      s.budgetTimer := rfl
@[simp] theorem State.mapEntries_hold (p : Entry → Bool) (f : EntryKind → EntryKind) :
    (s.mapEntries p f).hold =
      s.hold := rfl
@[simp] theorem State.mapEntries_queue (p : Entry → Bool) (f : EntryKind → EntryKind) :
    (s.mapEntries p f).queue =
      s.queue := rfl
@[simp] theorem State.mapEntries_intake (p : Entry → Bool) (f : EntryKind → EntryKind) :
    (s.mapEntries p f).intake =
      s.intake := rfl
@[simp] theorem State.mapEntries_windows (p : Entry → Bool) (f : EntryKind → EntryKind) :
    (s.mapEntries p f).windows =
      s.windows := rfl
@[simp] theorem State.mapEntries_groups (p : Entry → Bool) (f : EntryKind → EntryKind) :
    (s.mapEntries p f).groups =
      s.groups := rfl
@[simp] theorem State.mapEntries_streams (p : Entry → Bool) (f : EntryKind → EntryKind) :
    (s.mapEntries p f).streams =
      s.streams := rfl
@[simp] theorem State.mapEntries_serial (p : Entry → Bool) (f : EntryKind → EntryKind) :
    (s.mapEntries p f).serial =
      s.serial := rfl
@[simp] theorem State.mapEntries_staging (p : Entry → Bool) (f : EntryKind → EntryKind) :
    (s.mapEntries p f).staging =
      { s.staging with entries := s.staging.entries.map fun e => if p e then { e with kind := f e.kind } else e } := rfl
@[simp] theorem State.mapEntries_config (p : Entry → Bool) (f : EntryKind → EntryKind) :
    (s.mapEntries p f).config =
      s.config := rfl
@[simp] theorem State.mapEntries_journal (p : Entry → Bool) (f : EntryKind → EntryKind) :
    (s.mapEntries p f).journal =
      s.journal := rfl
@[simp] theorem State.mapEntries_apply (p : Entry → Bool) (f : EntryKind → EntryKind) :
    (s.mapEntries p f).apply =
      s.apply := rfl
@[simp] theorem State.mapEntries_ckpt (p : Entry → Bool) (f : EntryKind → EntryKind) :
    (s.mapEntries p f).ckpt =
      s.ckpt := rfl
@[simp] theorem State.mapEntries_reads (p : Entry → Bool) (f : EntryKind → EntryKind) :
    (s.mapEntries p f).reads =
      s.reads := rfl
@[simp] theorem State.mapEntries_formed (p : Entry → Bool) (f : EntryKind → EntryKind) :
    (s.mapEntries p f).formed =
      s.formed := rfl
@[simp] theorem State.mapEntries_marks (p : Entry → Bool) (f : EntryKind → EntryKind) :
    (s.mapEntries p f).marks =
      s.marks := rfl
@[simp] theorem State.mapEntries_recovery (p : Entry → Bool) (f : EntryKind → EntryKind) :
    (s.mapEntries p f).recovery =
      s.recovery := rfl
@[simp] theorem State.mapEntries_upper (p : Entry → Bool) (f : EntryKind → EntryKind) :
    (s.mapEntries p f).upper =
      s.upper := rfl
@[simp] theorem State.mapEntries_lower (p : Entry → Bool) (f : EntryKind → EntryKind) :
    (s.mapEntries p f).lower =
      s.lower := rfl
@[simp] theorem State.mapEntries_upperRetry (p : Entry → Bool) (f : EntryKind → EntryKind) :
    (s.mapEntries p f).upperRetry =
      s.upperRetry := rfl
@[simp] theorem State.mapEntries_lowerRetry (p : Entry → Bool) (f : EntryKind → EntryKind) :
    (s.mapEntries p f).lowerRetry =
      s.lowerRetry := rfl
@[simp] theorem State.mapEntries_credits (p : Entry → Bool) (f : EntryKind → EntryKind) :
    (s.mapEntries p f).credits =
      s.credits := rfl
@[simp] theorem State.mapEntries_lowerCredits (p : Entry → Bool) (f : EntryKind → EntryKind) :
    (s.mapEntries p f).lowerCredits =
      s.lowerCredits := rfl
@[simp] theorem State.mapEntries_tags (p : Entry → Bool) (f : EntryKind → EntryKind) :
    (s.mapEntries p f).tags =
      s.tags := rfl
@[simp] theorem State.mapEntries_holdTimer (p : Entry → Bool) (f : EntryKind → EntryKind) :
    (s.mapEntries p f).holdTimer =
      s.holdTimer := rfl
@[simp] theorem State.mapEntries_robin (p : Entry → Bool) (f : EntryKind → EntryKind) :
    (s.mapEntries p f).robin =
      s.robin := rfl
@[simp] theorem State.mapEntries_claims (p : Entry → Bool) (f : EntryKind → EntryKind) :
    (s.mapEntries p f).claims =
      s.claims := rfl
@[simp] theorem State.mapEntries_params (p : Entry → Bool) (f : EntryKind → EntryKind) :
    (s.mapEntries p f).params =
      s.params := rfl
@[simp] theorem State.mapEntries_pendingEntry (p : Entry → Bool) (f : EntryKind → EntryKind) :
    (s.mapEntries p f).pendingEntry =
      s.pendingEntry := rfl
@[simp] theorem State.mapEntries_response (p : Entry → Bool) (f : EntryKind → EntryKind) :
    (s.mapEntries p f).response =
      s.response := rfl
@[simp] theorem State.mapEntries_faults (p : Entry → Bool) (f : EntryKind → EntryKind) :
    (s.mapEntries p f).faults =
      s.faults := rfl
@[simp] theorem State.mapEntries_faultSeq (p : Entry → Bool) (f : EntryKind → EntryKind) :
    (s.mapEntries p f).faultSeq =
      s.faultSeq := rfl

/-! ### raiseDurable -/

@[simp] theorem State.raiseDurable_pending (n : Num32) :
    (s.raiseDurable n).pending =
      s.pending := rfl
@[simp] theorem State.raiseDurable_pfwAsserted (n : Num32) :
    (s.raiseDurable n).pfwAsserted =
      s.pfwAsserted := rfl
@[simp] theorem State.raiseDurable_safeLine (n : Num32) :
    (s.raiseDurable n).safeLine =
      s.safeLine := rfl
@[simp] theorem State.raiseDurable_alert (n : Num32) : (s.raiseDurable n).alert = s.alert := rfl
@[simp] theorem State.raiseDurable_i2cAddress (n : Num32) :
    (s.raiseDurable n).i2cAddress =
      s.i2cAddress := rfl
@[simp] theorem State.raiseDurable_sent (n : Num32) : (s.raiseDurable n).sent = s.sent := rfl
@[simp] theorem State.raiseDurable_mode (n : Num32) : (s.raiseDurable n).mode = s.mode := rfl
@[simp] theorem State.raiseDurable_budgetTimer (n : Num32) :
    (s.raiseDurable n).budgetTimer =
      s.budgetTimer := rfl
@[simp] theorem State.raiseDurable_hold (n : Num32) : (s.raiseDurable n).hold = s.hold := rfl
@[simp] theorem State.raiseDurable_queue (n : Num32) : (s.raiseDurable n).queue = s.queue := rfl
@[simp] theorem State.raiseDurable_intake (n : Num32) : (s.raiseDurable n).intake = s.intake := rfl
@[simp] theorem State.raiseDurable_windows (n : Num32) :
    (s.raiseDurable n).windows =
      s.windows := rfl
@[simp] theorem State.raiseDurable_groups (n : Num32) : (s.raiseDurable n).groups = s.groups := rfl
@[simp] theorem State.raiseDurable_streams (n : Num32) :
    (s.raiseDurable n).streams =
      s.streams := rfl
@[simp] theorem State.raiseDurable_serial (n : Num32) : (s.raiseDurable n).serial = s.serial := rfl
@[simp] theorem State.raiseDurable_staging (n : Num32) :
    (s.raiseDurable n).staging =
      s.staging := rfl
@[simp] theorem State.raiseDurable_config (n : Num32) : (s.raiseDurable n).config = s.config := rfl
@[simp] theorem State.raiseDurable_journal (n : Num32) :
    (s.raiseDurable n).journal =
      s.journal := rfl
@[simp] theorem State.raiseDurable_apply (n : Num32) : (s.raiseDurable n).apply = s.apply := rfl
@[simp] theorem State.raiseDurable_ckpt (n : Num32) : (s.raiseDurable n).ckpt = s.ckpt := rfl
@[simp] theorem State.raiseDurable_reads (n : Num32) : (s.raiseDurable n).reads = s.reads := rfl
@[simp] theorem State.raiseDurable_formed (n : Num32) : (s.raiseDurable n).formed = s.formed := rfl
@[simp] theorem State.raiseDurable_marks (n : Num32) :
    (s.raiseDurable n).marks =
      { s.marks with durable := if earlier s.marks.durable n then n else s.marks.durable } := rfl
@[simp] theorem State.raiseDurable_recovery (n : Num32) :
    (s.raiseDurable n).recovery =
      s.recovery := rfl
@[simp] theorem State.raiseDurable_upper (n : Num32) : (s.raiseDurable n).upper = s.upper := rfl
@[simp] theorem State.raiseDurable_lower (n : Num32) : (s.raiseDurable n).lower = s.lower := rfl
@[simp] theorem State.raiseDurable_upperRetry (n : Num32) :
    (s.raiseDurable n).upperRetry =
      s.upperRetry := rfl
@[simp] theorem State.raiseDurable_lowerRetry (n : Num32) :
    (s.raiseDurable n).lowerRetry =
      s.lowerRetry := rfl
@[simp] theorem State.raiseDurable_credits (n : Num32) :
    (s.raiseDurable n).credits =
      s.credits := rfl
@[simp] theorem State.raiseDurable_lowerCredits (n : Num32) :
    (s.raiseDurable n).lowerCredits =
      s.lowerCredits := rfl
@[simp] theorem State.raiseDurable_tags (n : Num32) : (s.raiseDurable n).tags = s.tags := rfl
@[simp] theorem State.raiseDurable_holdTimer (n : Num32) :
    (s.raiseDurable n).holdTimer =
      s.holdTimer := rfl
@[simp] theorem State.raiseDurable_robin (n : Num32) : (s.raiseDurable n).robin = s.robin := rfl
@[simp] theorem State.raiseDurable_claims (n : Num32) : (s.raiseDurable n).claims = s.claims := rfl
@[simp] theorem State.raiseDurable_params (n : Num32) : (s.raiseDurable n).params = s.params := rfl
@[simp] theorem State.raiseDurable_pendingEntry (n : Num32) :
    (s.raiseDurable n).pendingEntry =
      s.pendingEntry := rfl
@[simp] theorem State.raiseDurable_response (n : Num32) :
    (s.raiseDurable n).response =
      s.response := rfl
@[simp] theorem State.raiseDurable_faults (n : Num32) : (s.raiseDurable n).faults = s.faults := rfl
@[simp] theorem State.raiseDurable_faultSeq (n : Num32) :
    (s.raiseDurable n).faultSeq =
      s.faultSeq := rfl

/-! ### markGranted -/

@[simp] theorem State.markGranted_pending : s.markGranted.pending = s.pending := rfl
@[simp] theorem State.markGranted_pfwAsserted : s.markGranted.pfwAsserted = s.pfwAsserted := rfl
@[simp] theorem State.markGranted_safeLine : s.markGranted.safeLine = s.safeLine := rfl
@[simp] theorem State.markGranted_alert : s.markGranted.alert = s.alert := rfl
@[simp] theorem State.markGranted_i2cAddress : s.markGranted.i2cAddress = s.i2cAddress := rfl
@[simp] theorem State.markGranted_sent : s.markGranted.sent = s.sent := rfl
@[simp] theorem State.markGranted_mode : s.markGranted.mode = s.mode := rfl
@[simp] theorem State.markGranted_budgetTimer : s.markGranted.budgetTimer = s.budgetTimer := rfl
@[simp] theorem State.markGranted_hold : s.markGranted.hold = s.hold := rfl
@[simp] theorem State.markGranted_queue : s.markGranted.queue = s.queue := rfl
@[simp] theorem State.markGranted_intake : s.markGranted.intake = s.intake := rfl
@[simp] theorem State.markGranted_windows : s.markGranted.windows = s.windows := rfl
@[simp] theorem State.markGranted_groups : s.markGranted.groups = s.groups := rfl
@[simp] theorem State.markGranted_streams : s.markGranted.streams = s.streams := rfl
@[simp] theorem State.markGranted_serial : s.markGranted.serial = s.serial := rfl
@[simp] theorem State.markGranted_staging : s.markGranted.staging = s.staging := rfl
@[simp] theorem State.markGranted_config : s.markGranted.config = s.config := rfl
@[simp] theorem State.markGranted_journal : s.markGranted.journal = s.journal := rfl
@[simp] theorem State.markGranted_apply : s.markGranted.apply = s.apply := rfl
@[simp] theorem State.markGranted_ckpt : s.markGranted.ckpt = s.ckpt := rfl
@[simp] theorem State.markGranted_reads : s.markGranted.reads = s.reads := rfl
@[simp] theorem State.markGranted_formed : s.markGranted.formed = s.formed := rfl
@[simp] theorem State.markGranted_marks :
    s.markGranted.marks =
      { s.marks with granted := s.marks.passSend } := rfl
@[simp] theorem State.markGranted_recovery : s.markGranted.recovery = s.recovery := rfl
@[simp] theorem State.markGranted_upper : s.markGranted.upper = s.upper := rfl
@[simp] theorem State.markGranted_lower : s.markGranted.lower = s.lower := rfl
@[simp] theorem State.markGranted_upperRetry : s.markGranted.upperRetry = s.upperRetry := rfl
@[simp] theorem State.markGranted_lowerRetry : s.markGranted.lowerRetry = s.lowerRetry := rfl
@[simp] theorem State.markGranted_credits : s.markGranted.credits = s.credits := rfl
@[simp] theorem State.markGranted_lowerCredits : s.markGranted.lowerCredits = s.lowerCredits := rfl
@[simp] theorem State.markGranted_tags : s.markGranted.tags = s.tags := rfl
@[simp] theorem State.markGranted_holdTimer : s.markGranted.holdTimer = s.holdTimer := rfl
@[simp] theorem State.markGranted_robin : s.markGranted.robin = s.robin := rfl
@[simp] theorem State.markGranted_claims : s.markGranted.claims = s.claims := rfl
@[simp] theorem State.markGranted_params : s.markGranted.params = s.params := rfl
@[simp] theorem State.markGranted_pendingEntry : s.markGranted.pendingEntry = s.pendingEntry := rfl
@[simp] theorem State.markGranted_response : s.markGranted.response = s.response := rfl
@[simp] theorem State.markGranted_faults : s.markGranted.faults = s.faults := rfl
@[simp] theorem State.markGranted_faultSeq : s.markGranted.faultSeq = s.faultSeq := rfl

/-! ### countPassSend -/

@[simp] theorem State.countPassSend_pending : s.countPassSend.pending = s.pending := rfl
@[simp] theorem State.countPassSend_pfwAsserted : s.countPassSend.pfwAsserted = s.pfwAsserted := rfl
@[simp] theorem State.countPassSend_safeLine : s.countPassSend.safeLine = s.safeLine := rfl
@[simp] theorem State.countPassSend_alert : s.countPassSend.alert = s.alert := rfl
@[simp] theorem State.countPassSend_i2cAddress : s.countPassSend.i2cAddress = s.i2cAddress := rfl
@[simp] theorem State.countPassSend_sent : s.countPassSend.sent = s.sent := rfl
@[simp] theorem State.countPassSend_mode : s.countPassSend.mode = s.mode := rfl
@[simp] theorem State.countPassSend_budgetTimer : s.countPassSend.budgetTimer = s.budgetTimer := rfl
@[simp] theorem State.countPassSend_hold : s.countPassSend.hold = s.hold := rfl
@[simp] theorem State.countPassSend_queue : s.countPassSend.queue = s.queue := rfl
@[simp] theorem State.countPassSend_intake : s.countPassSend.intake = s.intake := rfl
@[simp] theorem State.countPassSend_windows : s.countPassSend.windows = s.windows := rfl
@[simp] theorem State.countPassSend_groups : s.countPassSend.groups = s.groups := rfl
@[simp] theorem State.countPassSend_streams : s.countPassSend.streams = s.streams := rfl
@[simp] theorem State.countPassSend_serial : s.countPassSend.serial = s.serial := rfl
@[simp] theorem State.countPassSend_staging : s.countPassSend.staging = s.staging := rfl
@[simp] theorem State.countPassSend_config : s.countPassSend.config = s.config := rfl
@[simp] theorem State.countPassSend_journal : s.countPassSend.journal = s.journal := rfl
@[simp] theorem State.countPassSend_apply : s.countPassSend.apply = s.apply := rfl
@[simp] theorem State.countPassSend_ckpt : s.countPassSend.ckpt = s.ckpt := rfl
@[simp] theorem State.countPassSend_reads : s.countPassSend.reads = s.reads := rfl
@[simp] theorem State.countPassSend_formed : s.countPassSend.formed = s.formed := rfl
@[simp] theorem State.countPassSend_marks :
    s.countPassSend.marks =
      { s.marks with passSend := s.marks.passSend + 1#32 } := rfl
@[simp] theorem State.countPassSend_recovery : s.countPassSend.recovery = s.recovery := rfl
@[simp] theorem State.countPassSend_upper : s.countPassSend.upper = s.upper := rfl
@[simp] theorem State.countPassSend_lower : s.countPassSend.lower = s.lower := rfl
@[simp] theorem State.countPassSend_upperRetry : s.countPassSend.upperRetry = s.upperRetry := rfl
@[simp] theorem State.countPassSend_lowerRetry : s.countPassSend.lowerRetry = s.lowerRetry := rfl
@[simp] theorem State.countPassSend_credits : s.countPassSend.credits = s.credits := rfl
@[simp] theorem State.countPassSend_lowerCredits :
    s.countPassSend.lowerCredits =
      s.lowerCredits := rfl
@[simp] theorem State.countPassSend_tags : s.countPassSend.tags = s.tags := rfl
@[simp] theorem State.countPassSend_holdTimer : s.countPassSend.holdTimer = s.holdTimer := rfl
@[simp] theorem State.countPassSend_robin : s.countPassSend.robin = s.robin := rfl
@[simp] theorem State.countPassSend_claims : s.countPassSend.claims = s.claims := rfl
@[simp] theorem State.countPassSend_params : s.countPassSend.params = s.params := rfl
@[simp] theorem State.countPassSend_pendingEntry :
    s.countPassSend.pendingEntry =
      s.pendingEntry := rfl
@[simp] theorem State.countPassSend_response : s.countPassSend.response = s.response := rfl
@[simp] theorem State.countPassSend_faults : s.countPassSend.faults = s.faults := rfl
@[simp] theorem State.countPassSend_faultSeq : s.countPassSend.faultSeq = s.faultSeq := rfl

/-! ### withJournal -/

@[simp] theorem State.withJournal_pending (f : Journal → Journal) :
    (s.withJournal f).pending =
      s.pending := rfl
@[simp] theorem State.withJournal_pfwAsserted (f : Journal → Journal) :
    (s.withJournal f).pfwAsserted =
      s.pfwAsserted := rfl
@[simp] theorem State.withJournal_safeLine (f : Journal → Journal) :
    (s.withJournal f).safeLine =
      s.safeLine := rfl
@[simp] theorem State.withJournal_alert (f : Journal → Journal) :
    (s.withJournal f).alert =
      s.alert := rfl
@[simp] theorem State.withJournal_i2cAddress (f : Journal → Journal) :
    (s.withJournal f).i2cAddress =
      s.i2cAddress := rfl
@[simp] theorem State.withJournal_sent (f : Journal → Journal) :
    (s.withJournal f).sent =
      s.sent := rfl
@[simp] theorem State.withJournal_mode (f : Journal → Journal) :
    (s.withJournal f).mode =
      s.mode := rfl
@[simp] theorem State.withJournal_budgetTimer (f : Journal → Journal) :
    (s.withJournal f).budgetTimer =
      s.budgetTimer := rfl
@[simp] theorem State.withJournal_hold (f : Journal → Journal) :
    (s.withJournal f).hold =
      s.hold := rfl
@[simp] theorem State.withJournal_queue (f : Journal → Journal) :
    (s.withJournal f).queue =
      s.queue := rfl
@[simp] theorem State.withJournal_intake (f : Journal → Journal) :
    (s.withJournal f).intake =
      s.intake := rfl
@[simp] theorem State.withJournal_windows (f : Journal → Journal) :
    (s.withJournal f).windows =
      s.windows := rfl
@[simp] theorem State.withJournal_groups (f : Journal → Journal) :
    (s.withJournal f).groups =
      s.groups := rfl
@[simp] theorem State.withJournal_streams (f : Journal → Journal) :
    (s.withJournal f).streams =
      s.streams := rfl
@[simp] theorem State.withJournal_serial (f : Journal → Journal) :
    (s.withJournal f).serial =
      s.serial := rfl
@[simp] theorem State.withJournal_staging (f : Journal → Journal) :
    (s.withJournal f).staging =
      s.staging := rfl
@[simp] theorem State.withJournal_config (f : Journal → Journal) :
    (s.withJournal f).config =
      s.config := rfl
@[simp] theorem State.withJournal_journal (f : Journal → Journal) :
    (s.withJournal f).journal =
      f s.journal := rfl
@[simp] theorem State.withJournal_apply (f : Journal → Journal) :
    (s.withJournal f).apply =
      s.apply := rfl
@[simp] theorem State.withJournal_ckpt (f : Journal → Journal) :
    (s.withJournal f).ckpt =
      s.ckpt := rfl
@[simp] theorem State.withJournal_reads (f : Journal → Journal) :
    (s.withJournal f).reads =
      s.reads := rfl
@[simp] theorem State.withJournal_formed (f : Journal → Journal) :
    (s.withJournal f).formed =
      s.formed := rfl
@[simp] theorem State.withJournal_marks (f : Journal → Journal) :
    (s.withJournal f).marks =
      s.marks := rfl
@[simp] theorem State.withJournal_recovery (f : Journal → Journal) :
    (s.withJournal f).recovery =
      s.recovery := rfl
@[simp] theorem State.withJournal_upper (f : Journal → Journal) :
    (s.withJournal f).upper =
      s.upper := rfl
@[simp] theorem State.withJournal_lower (f : Journal → Journal) :
    (s.withJournal f).lower =
      s.lower := rfl
@[simp] theorem State.withJournal_upperRetry (f : Journal → Journal) :
    (s.withJournal f).upperRetry =
      s.upperRetry := rfl
@[simp] theorem State.withJournal_lowerRetry (f : Journal → Journal) :
    (s.withJournal f).lowerRetry =
      s.lowerRetry := rfl
@[simp] theorem State.withJournal_credits (f : Journal → Journal) :
    (s.withJournal f).credits =
      s.credits := rfl
@[simp] theorem State.withJournal_lowerCredits (f : Journal → Journal) :
    (s.withJournal f).lowerCredits =
      s.lowerCredits := rfl
@[simp] theorem State.withJournal_tags (f : Journal → Journal) :
    (s.withJournal f).tags =
      s.tags := rfl
@[simp] theorem State.withJournal_holdTimer (f : Journal → Journal) :
    (s.withJournal f).holdTimer =
      s.holdTimer := rfl
@[simp] theorem State.withJournal_robin (f : Journal → Journal) :
    (s.withJournal f).robin =
      s.robin := rfl
@[simp] theorem State.withJournal_claims (f : Journal → Journal) :
    (s.withJournal f).claims =
      s.claims := rfl
@[simp] theorem State.withJournal_params (f : Journal → Journal) :
    (s.withJournal f).params =
      s.params := rfl
@[simp] theorem State.withJournal_pendingEntry (f : Journal → Journal) :
    (s.withJournal f).pendingEntry =
      s.pendingEntry := rfl
@[simp] theorem State.withJournal_response (f : Journal → Journal) :
    (s.withJournal f).response =
      s.response := rfl
@[simp] theorem State.withJournal_faults (f : Journal → Journal) :
    (s.withJournal f).faults =
      s.faults := rfl
@[simp] theorem State.withJournal_faultSeq (f : Journal → Journal) :
    (s.withJournal f).faultSeq =
      s.faultSeq := rfl

/-! ### withCkpt -/

@[simp] theorem State.withCkpt_pending (f : Checkpoint → Checkpoint) :
    (s.withCkpt f).pending =
      s.pending := rfl
@[simp] theorem State.withCkpt_pfwAsserted (f : Checkpoint → Checkpoint) :
    (s.withCkpt f).pfwAsserted =
      s.pfwAsserted := rfl
@[simp] theorem State.withCkpt_safeLine (f : Checkpoint → Checkpoint) :
    (s.withCkpt f).safeLine =
      s.safeLine := rfl
@[simp] theorem State.withCkpt_alert (f : Checkpoint → Checkpoint) :
    (s.withCkpt f).alert =
      s.alert := rfl
@[simp] theorem State.withCkpt_i2cAddress (f : Checkpoint → Checkpoint) :
    (s.withCkpt f).i2cAddress =
      s.i2cAddress := rfl
@[simp] theorem State.withCkpt_sent (f : Checkpoint → Checkpoint) :
    (s.withCkpt f).sent =
      s.sent := rfl
@[simp] theorem State.withCkpt_mode (f : Checkpoint → Checkpoint) :
    (s.withCkpt f).mode =
      s.mode := rfl
@[simp] theorem State.withCkpt_budgetTimer (f : Checkpoint → Checkpoint) :
    (s.withCkpt f).budgetTimer =
      s.budgetTimer := rfl
@[simp] theorem State.withCkpt_hold (f : Checkpoint → Checkpoint) :
    (s.withCkpt f).hold =
      s.hold := rfl
@[simp] theorem State.withCkpt_queue (f : Checkpoint → Checkpoint) :
    (s.withCkpt f).queue =
      s.queue := rfl
@[simp] theorem State.withCkpt_intake (f : Checkpoint → Checkpoint) :
    (s.withCkpt f).intake =
      s.intake := rfl
@[simp] theorem State.withCkpt_windows (f : Checkpoint → Checkpoint) :
    (s.withCkpt f).windows =
      s.windows := rfl
@[simp] theorem State.withCkpt_groups (f : Checkpoint → Checkpoint) :
    (s.withCkpt f).groups =
      s.groups := rfl
@[simp] theorem State.withCkpt_streams (f : Checkpoint → Checkpoint) :
    (s.withCkpt f).streams =
      s.streams := rfl
@[simp] theorem State.withCkpt_serial (f : Checkpoint → Checkpoint) :
    (s.withCkpt f).serial =
      s.serial := rfl
@[simp] theorem State.withCkpt_staging (f : Checkpoint → Checkpoint) :
    (s.withCkpt f).staging =
      s.staging := rfl
@[simp] theorem State.withCkpt_config (f : Checkpoint → Checkpoint) :
    (s.withCkpt f).config =
      s.config := rfl
@[simp] theorem State.withCkpt_journal (f : Checkpoint → Checkpoint) :
    (s.withCkpt f).journal =
      s.journal := rfl
@[simp] theorem State.withCkpt_apply (f : Checkpoint → Checkpoint) :
    (s.withCkpt f).apply =
      s.apply := rfl
@[simp] theorem State.withCkpt_ckpt (f : Checkpoint → Checkpoint) :
    (s.withCkpt f).ckpt =
      f s.ckpt := rfl
@[simp] theorem State.withCkpt_reads (f : Checkpoint → Checkpoint) :
    (s.withCkpt f).reads =
      s.reads := rfl
@[simp] theorem State.withCkpt_formed (f : Checkpoint → Checkpoint) :
    (s.withCkpt f).formed =
      s.formed := rfl
@[simp] theorem State.withCkpt_marks (f : Checkpoint → Checkpoint) :
    (s.withCkpt f).marks =
      s.marks := rfl
@[simp] theorem State.withCkpt_recovery (f : Checkpoint → Checkpoint) :
    (s.withCkpt f).recovery =
      s.recovery := rfl
@[simp] theorem State.withCkpt_upper (f : Checkpoint → Checkpoint) :
    (s.withCkpt f).upper =
      s.upper := rfl
@[simp] theorem State.withCkpt_lower (f : Checkpoint → Checkpoint) :
    (s.withCkpt f).lower =
      s.lower := rfl
@[simp] theorem State.withCkpt_upperRetry (f : Checkpoint → Checkpoint) :
    (s.withCkpt f).upperRetry =
      s.upperRetry := rfl
@[simp] theorem State.withCkpt_lowerRetry (f : Checkpoint → Checkpoint) :
    (s.withCkpt f).lowerRetry =
      s.lowerRetry := rfl
@[simp] theorem State.withCkpt_credits (f : Checkpoint → Checkpoint) :
    (s.withCkpt f).credits =
      s.credits := rfl
@[simp] theorem State.withCkpt_lowerCredits (f : Checkpoint → Checkpoint) :
    (s.withCkpt f).lowerCredits =
      s.lowerCredits := rfl
@[simp] theorem State.withCkpt_tags (f : Checkpoint → Checkpoint) :
    (s.withCkpt f).tags =
      s.tags := rfl
@[simp] theorem State.withCkpt_holdTimer (f : Checkpoint → Checkpoint) :
    (s.withCkpt f).holdTimer =
      s.holdTimer := rfl
@[simp] theorem State.withCkpt_robin (f : Checkpoint → Checkpoint) :
    (s.withCkpt f).robin =
      s.robin := rfl
@[simp] theorem State.withCkpt_claims (f : Checkpoint → Checkpoint) :
    (s.withCkpt f).claims =
      s.claims := rfl
@[simp] theorem State.withCkpt_params (f : Checkpoint → Checkpoint) :
    (s.withCkpt f).params =
      s.params := rfl
@[simp] theorem State.withCkpt_pendingEntry (f : Checkpoint → Checkpoint) :
    (s.withCkpt f).pendingEntry =
      s.pendingEntry := rfl
@[simp] theorem State.withCkpt_response (f : Checkpoint → Checkpoint) :
    (s.withCkpt f).response =
      s.response := rfl
@[simp] theorem State.withCkpt_faults (f : Checkpoint → Checkpoint) :
    (s.withCkpt f).faults =
      s.faults := rfl
@[simp] theorem State.withCkpt_faultSeq (f : Checkpoint → Checkpoint) :
    (s.withCkpt f).faultSeq =
      s.faultSeq := rfl

/-! ### withFlight -/

@[simp] theorem State.withFlight_pending (f : CkptFlight → CkptFlight) :
    (s.withFlight f).pending =
      s.pending := rfl
@[simp] theorem State.withFlight_pfwAsserted (f : CkptFlight → CkptFlight) :
    (s.withFlight f).pfwAsserted =
      s.pfwAsserted := rfl
@[simp] theorem State.withFlight_safeLine (f : CkptFlight → CkptFlight) :
    (s.withFlight f).safeLine =
      s.safeLine := rfl
@[simp] theorem State.withFlight_alert (f : CkptFlight → CkptFlight) :
    (s.withFlight f).alert =
      s.alert := rfl
@[simp] theorem State.withFlight_i2cAddress (f : CkptFlight → CkptFlight) :
    (s.withFlight f).i2cAddress =
      s.i2cAddress := rfl
@[simp] theorem State.withFlight_sent (f : CkptFlight → CkptFlight) :
    (s.withFlight f).sent =
      s.sent := rfl
@[simp] theorem State.withFlight_mode (f : CkptFlight → CkptFlight) :
    (s.withFlight f).mode =
      s.mode := rfl
@[simp] theorem State.withFlight_budgetTimer (f : CkptFlight → CkptFlight) :
    (s.withFlight f).budgetTimer =
      s.budgetTimer := rfl
@[simp] theorem State.withFlight_hold (f : CkptFlight → CkptFlight) :
    (s.withFlight f).hold =
      s.hold := rfl
@[simp] theorem State.withFlight_queue (f : CkptFlight → CkptFlight) :
    (s.withFlight f).queue =
      s.queue := rfl
@[simp] theorem State.withFlight_intake (f : CkptFlight → CkptFlight) :
    (s.withFlight f).intake =
      s.intake := rfl
@[simp] theorem State.withFlight_windows (f : CkptFlight → CkptFlight) :
    (s.withFlight f).windows =
      s.windows := rfl
@[simp] theorem State.withFlight_groups (f : CkptFlight → CkptFlight) :
    (s.withFlight f).groups =
      s.groups := rfl
@[simp] theorem State.withFlight_streams (f : CkptFlight → CkptFlight) :
    (s.withFlight f).streams =
      s.streams := rfl
@[simp] theorem State.withFlight_serial (f : CkptFlight → CkptFlight) :
    (s.withFlight f).serial =
      s.serial := rfl
@[simp] theorem State.withFlight_staging (f : CkptFlight → CkptFlight) :
    (s.withFlight f).staging =
      s.staging := rfl
@[simp] theorem State.withFlight_config (f : CkptFlight → CkptFlight) :
    (s.withFlight f).config =
      s.config := rfl
@[simp] theorem State.withFlight_journal (f : CkptFlight → CkptFlight) :
    (s.withFlight f).journal =
      s.journal := rfl
@[simp] theorem State.withFlight_apply (f : CkptFlight → CkptFlight) :
    (s.withFlight f).apply =
      s.apply := rfl
@[simp] theorem State.withFlight_ckpt (f : CkptFlight → CkptFlight) :
    (s.withFlight f).ckpt =
      { s.ckpt with flight := s.ckpt.flight.map f } := rfl
@[simp] theorem State.withFlight_reads (f : CkptFlight → CkptFlight) :
    (s.withFlight f).reads =
      s.reads := rfl
@[simp] theorem State.withFlight_formed (f : CkptFlight → CkptFlight) :
    (s.withFlight f).formed =
      s.formed := rfl
@[simp] theorem State.withFlight_marks (f : CkptFlight → CkptFlight) :
    (s.withFlight f).marks =
      s.marks := rfl
@[simp] theorem State.withFlight_recovery (f : CkptFlight → CkptFlight) :
    (s.withFlight f).recovery =
      s.recovery := rfl
@[simp] theorem State.withFlight_upper (f : CkptFlight → CkptFlight) :
    (s.withFlight f).upper =
      s.upper := rfl
@[simp] theorem State.withFlight_lower (f : CkptFlight → CkptFlight) :
    (s.withFlight f).lower =
      s.lower := rfl
@[simp] theorem State.withFlight_upperRetry (f : CkptFlight → CkptFlight) :
    (s.withFlight f).upperRetry =
      s.upperRetry := rfl
@[simp] theorem State.withFlight_lowerRetry (f : CkptFlight → CkptFlight) :
    (s.withFlight f).lowerRetry =
      s.lowerRetry := rfl
@[simp] theorem State.withFlight_credits (f : CkptFlight → CkptFlight) :
    (s.withFlight f).credits =
      s.credits := rfl
@[simp] theorem State.withFlight_lowerCredits (f : CkptFlight → CkptFlight) :
    (s.withFlight f).lowerCredits =
      s.lowerCredits := rfl
@[simp] theorem State.withFlight_tags (f : CkptFlight → CkptFlight) :
    (s.withFlight f).tags =
      s.tags := rfl
@[simp] theorem State.withFlight_holdTimer (f : CkptFlight → CkptFlight) :
    (s.withFlight f).holdTimer =
      s.holdTimer := rfl
@[simp] theorem State.withFlight_robin (f : CkptFlight → CkptFlight) :
    (s.withFlight f).robin =
      s.robin := rfl
@[simp] theorem State.withFlight_claims (f : CkptFlight → CkptFlight) :
    (s.withFlight f).claims =
      s.claims := rfl
@[simp] theorem State.withFlight_params (f : CkptFlight → CkptFlight) :
    (s.withFlight f).params =
      s.params := rfl
@[simp] theorem State.withFlight_pendingEntry (f : CkptFlight → CkptFlight) :
    (s.withFlight f).pendingEntry =
      s.pendingEntry := rfl
@[simp] theorem State.withFlight_response (f : CkptFlight → CkptFlight) :
    (s.withFlight f).response =
      s.response := rfl
@[simp] theorem State.withFlight_faults (f : CkptFlight → CkptFlight) :
    (s.withFlight f).faults =
      s.faults := rfl
@[simp] theorem State.withFlight_faultSeq (f : CkptFlight → CkptFlight) :
    (s.withFlight f).faultSeq =
      s.faultSeq := rfl

/-! ### withRecovery -/

@[simp] theorem State.withRecovery_pending (f : Recovery → Recovery) :
    (s.withRecovery f).pending =
      s.pending := rfl
@[simp] theorem State.withRecovery_pfwAsserted (f : Recovery → Recovery) :
    (s.withRecovery f).pfwAsserted =
      s.pfwAsserted := rfl
@[simp] theorem State.withRecovery_safeLine (f : Recovery → Recovery) :
    (s.withRecovery f).safeLine =
      s.safeLine := rfl
@[simp] theorem State.withRecovery_alert (f : Recovery → Recovery) :
    (s.withRecovery f).alert =
      s.alert := rfl
@[simp] theorem State.withRecovery_i2cAddress (f : Recovery → Recovery) :
    (s.withRecovery f).i2cAddress =
      s.i2cAddress := rfl
@[simp] theorem State.withRecovery_sent (f : Recovery → Recovery) :
    (s.withRecovery f).sent =
      s.sent := rfl
@[simp] theorem State.withRecovery_mode (f : Recovery → Recovery) :
    (s.withRecovery f).mode =
      s.mode := rfl
@[simp] theorem State.withRecovery_budgetTimer (f : Recovery → Recovery) :
    (s.withRecovery f).budgetTimer =
      s.budgetTimer := rfl
@[simp] theorem State.withRecovery_hold (f : Recovery → Recovery) :
    (s.withRecovery f).hold =
      s.hold := rfl
@[simp] theorem State.withRecovery_queue (f : Recovery → Recovery) :
    (s.withRecovery f).queue =
      s.queue := rfl
@[simp] theorem State.withRecovery_intake (f : Recovery → Recovery) :
    (s.withRecovery f).intake =
      s.intake := rfl
@[simp] theorem State.withRecovery_windows (f : Recovery → Recovery) :
    (s.withRecovery f).windows =
      s.windows := rfl
@[simp] theorem State.withRecovery_groups (f : Recovery → Recovery) :
    (s.withRecovery f).groups =
      s.groups := rfl
@[simp] theorem State.withRecovery_streams (f : Recovery → Recovery) :
    (s.withRecovery f).streams =
      s.streams := rfl
@[simp] theorem State.withRecovery_serial (f : Recovery → Recovery) :
    (s.withRecovery f).serial =
      s.serial := rfl
@[simp] theorem State.withRecovery_staging (f : Recovery → Recovery) :
    (s.withRecovery f).staging =
      s.staging := rfl
@[simp] theorem State.withRecovery_config (f : Recovery → Recovery) :
    (s.withRecovery f).config =
      s.config := rfl
@[simp] theorem State.withRecovery_journal (f : Recovery → Recovery) :
    (s.withRecovery f).journal =
      s.journal := rfl
@[simp] theorem State.withRecovery_apply (f : Recovery → Recovery) :
    (s.withRecovery f).apply =
      s.apply := rfl
@[simp] theorem State.withRecovery_ckpt (f : Recovery → Recovery) :
    (s.withRecovery f).ckpt =
      s.ckpt := rfl
@[simp] theorem State.withRecovery_reads (f : Recovery → Recovery) :
    (s.withRecovery f).reads =
      s.reads := rfl
@[simp] theorem State.withRecovery_formed (f : Recovery → Recovery) :
    (s.withRecovery f).formed =
      s.formed := rfl
@[simp] theorem State.withRecovery_marks (f : Recovery → Recovery) :
    (s.withRecovery f).marks =
      s.marks := rfl
@[simp] theorem State.withRecovery_recovery (f : Recovery → Recovery) :
    (s.withRecovery f).recovery =
      f s.recovery := rfl
@[simp] theorem State.withRecovery_upper (f : Recovery → Recovery) :
    (s.withRecovery f).upper =
      s.upper := rfl
@[simp] theorem State.withRecovery_lower (f : Recovery → Recovery) :
    (s.withRecovery f).lower =
      s.lower := rfl
@[simp] theorem State.withRecovery_upperRetry (f : Recovery → Recovery) :
    (s.withRecovery f).upperRetry =
      s.upperRetry := rfl
@[simp] theorem State.withRecovery_lowerRetry (f : Recovery → Recovery) :
    (s.withRecovery f).lowerRetry =
      s.lowerRetry := rfl
@[simp] theorem State.withRecovery_credits (f : Recovery → Recovery) :
    (s.withRecovery f).credits =
      s.credits := rfl
@[simp] theorem State.withRecovery_lowerCredits (f : Recovery → Recovery) :
    (s.withRecovery f).lowerCredits =
      s.lowerCredits := rfl
@[simp] theorem State.withRecovery_tags (f : Recovery → Recovery) :
    (s.withRecovery f).tags =
      s.tags := rfl
@[simp] theorem State.withRecovery_holdTimer (f : Recovery → Recovery) :
    (s.withRecovery f).holdTimer =
      s.holdTimer := rfl
@[simp] theorem State.withRecovery_robin (f : Recovery → Recovery) :
    (s.withRecovery f).robin =
      s.robin := rfl
@[simp] theorem State.withRecovery_claims (f : Recovery → Recovery) :
    (s.withRecovery f).claims =
      s.claims := rfl
@[simp] theorem State.withRecovery_params (f : Recovery → Recovery) :
    (s.withRecovery f).params =
      s.params := rfl
@[simp] theorem State.withRecovery_pendingEntry (f : Recovery → Recovery) :
    (s.withRecovery f).pendingEntry =
      s.pendingEntry := rfl
@[simp] theorem State.withRecovery_response (f : Recovery → Recovery) :
    (s.withRecovery f).response =
      s.response := rfl
@[simp] theorem State.withRecovery_faults (f : Recovery → Recovery) :
    (s.withRecovery f).faults =
      s.faults := rfl
@[simp] theorem State.withRecovery_faultSeq (f : Recovery → Recovery) :
    (s.withRecovery f).faultSeq =
      s.faultSeq := rfl

/-! ### withScan -/

@[simp] theorem State.withScan_pending (f : Scan → Scan) : (s.withScan f).pending = s.pending := rfl
@[simp] theorem State.withScan_pfwAsserted (f : Scan → Scan) :
    (s.withScan f).pfwAsserted =
      s.pfwAsserted := rfl
@[simp] theorem State.withScan_safeLine (f : Scan → Scan) :
    (s.withScan f).safeLine =
      s.safeLine := rfl
@[simp] theorem State.withScan_alert (f : Scan → Scan) : (s.withScan f).alert = s.alert := rfl
@[simp] theorem State.withScan_i2cAddress (f : Scan → Scan) :
    (s.withScan f).i2cAddress =
      s.i2cAddress := rfl
@[simp] theorem State.withScan_sent (f : Scan → Scan) : (s.withScan f).sent = s.sent := rfl
@[simp] theorem State.withScan_mode (f : Scan → Scan) : (s.withScan f).mode = s.mode := rfl
@[simp] theorem State.withScan_budgetTimer (f : Scan → Scan) :
    (s.withScan f).budgetTimer =
      s.budgetTimer := rfl
@[simp] theorem State.withScan_hold (f : Scan → Scan) : (s.withScan f).hold = s.hold := rfl
@[simp] theorem State.withScan_queue (f : Scan → Scan) : (s.withScan f).queue = s.queue := rfl
@[simp] theorem State.withScan_intake (f : Scan → Scan) : (s.withScan f).intake = s.intake := rfl
@[simp] theorem State.withScan_windows (f : Scan → Scan) : (s.withScan f).windows = s.windows := rfl
@[simp] theorem State.withScan_groups (f : Scan → Scan) : (s.withScan f).groups = s.groups := rfl
@[simp] theorem State.withScan_streams (f : Scan → Scan) : (s.withScan f).streams = s.streams := rfl
@[simp] theorem State.withScan_serial (f : Scan → Scan) : (s.withScan f).serial = s.serial := rfl
@[simp] theorem State.withScan_staging (f : Scan → Scan) : (s.withScan f).staging = s.staging := rfl
@[simp] theorem State.withScan_config (f : Scan → Scan) : (s.withScan f).config = s.config := rfl
@[simp] theorem State.withScan_journal (f : Scan → Scan) : (s.withScan f).journal = s.journal := rfl
@[simp] theorem State.withScan_apply (f : Scan → Scan) : (s.withScan f).apply = s.apply := rfl
@[simp] theorem State.withScan_ckpt (f : Scan → Scan) : (s.withScan f).ckpt = s.ckpt := rfl
@[simp] theorem State.withScan_reads (f : Scan → Scan) : (s.withScan f).reads = s.reads := rfl
@[simp] theorem State.withScan_formed (f : Scan → Scan) : (s.withScan f).formed = s.formed := rfl
@[simp] theorem State.withScan_marks (f : Scan → Scan) : (s.withScan f).marks = s.marks := rfl
@[simp] theorem State.withScan_recovery (f : Scan → Scan) :
    (s.withScan f).recovery =
      { s.recovery with scan := s.recovery.scan.map f } := rfl
@[simp] theorem State.withScan_upper (f : Scan → Scan) : (s.withScan f).upper = s.upper := rfl
@[simp] theorem State.withScan_lower (f : Scan → Scan) : (s.withScan f).lower = s.lower := rfl
@[simp] theorem State.withScan_upperRetry (f : Scan → Scan) :
    (s.withScan f).upperRetry =
      s.upperRetry := rfl
@[simp] theorem State.withScan_lowerRetry (f : Scan → Scan) :
    (s.withScan f).lowerRetry =
      s.lowerRetry := rfl
@[simp] theorem State.withScan_credits (f : Scan → Scan) : (s.withScan f).credits = s.credits := rfl
@[simp] theorem State.withScan_lowerCredits (f : Scan → Scan) :
    (s.withScan f).lowerCredits =
      s.lowerCredits := rfl
@[simp] theorem State.withScan_tags (f : Scan → Scan) : (s.withScan f).tags = s.tags := rfl
@[simp] theorem State.withScan_holdTimer (f : Scan → Scan) :
    (s.withScan f).holdTimer =
      s.holdTimer := rfl
@[simp] theorem State.withScan_robin (f : Scan → Scan) : (s.withScan f).robin = s.robin := rfl
@[simp] theorem State.withScan_claims (f : Scan → Scan) : (s.withScan f).claims = s.claims := rfl
@[simp] theorem State.withScan_params (f : Scan → Scan) : (s.withScan f).params = s.params := rfl
@[simp] theorem State.withScan_pendingEntry (f : Scan → Scan) :
    (s.withScan f).pendingEntry =
      s.pendingEntry := rfl
@[simp] theorem State.withScan_response (f : Scan → Scan) :
    (s.withScan f).response =
      s.response := rfl
@[simp] theorem State.withScan_faults (f : Scan → Scan) : (s.withScan f).faults = s.faults := rfl
@[simp] theorem State.withScan_faultSeq (f : Scan → Scan) :
    (s.withScan f).faultSeq =
      s.faultSeq := rfl

/-! ### respond -/

@[simp] theorem State.respond_pending (st : RespStatus) (d : List Byte) :
    (s.respond st d).pending =
      s.pending := rfl
@[simp] theorem State.respond_pfwAsserted (st : RespStatus) (d : List Byte) :
    (s.respond st d).pfwAsserted =
      s.pfwAsserted := rfl
@[simp] theorem State.respond_safeLine (st : RespStatus) (d : List Byte) :
    (s.respond st d).safeLine =
      s.safeLine := rfl
@[simp] theorem State.respond_alert (st : RespStatus) (d : List Byte) :
    (s.respond st d).alert =
      s.alert := rfl
@[simp] theorem State.respond_i2cAddress (st : RespStatus) (d : List Byte) :
    (s.respond st d).i2cAddress =
      s.i2cAddress := rfl
@[simp] theorem State.respond_sent (st : RespStatus) (d : List Byte) :
    (s.respond st d).sent =
      s.sent := rfl
@[simp] theorem State.respond_mode (st : RespStatus) (d : List Byte) :
    (s.respond st d).mode =
      s.mode := rfl
@[simp] theorem State.respond_budgetTimer (st : RespStatus) (d : List Byte) :
    (s.respond st d).budgetTimer =
      s.budgetTimer := rfl
@[simp] theorem State.respond_hold (st : RespStatus) (d : List Byte) :
    (s.respond st d).hold =
      s.hold := rfl
@[simp] theorem State.respond_queue (st : RespStatus) (d : List Byte) :
    (s.respond st d).queue =
      s.queue := rfl
@[simp] theorem State.respond_intake (st : RespStatus) (d : List Byte) :
    (s.respond st d).intake =
      s.intake := rfl
@[simp] theorem State.respond_windows (st : RespStatus) (d : List Byte) :
    (s.respond st d).windows =
      s.windows := rfl
@[simp] theorem State.respond_groups (st : RespStatus) (d : List Byte) :
    (s.respond st d).groups =
      s.groups := rfl
@[simp] theorem State.respond_streams (st : RespStatus) (d : List Byte) :
    (s.respond st d).streams =
      s.streams := rfl
@[simp] theorem State.respond_serial (st : RespStatus) (d : List Byte) :
    (s.respond st d).serial =
      s.serial := rfl
@[simp] theorem State.respond_staging (st : RespStatus) (d : List Byte) :
    (s.respond st d).staging =
      s.staging := rfl
@[simp] theorem State.respond_config (st : RespStatus) (d : List Byte) :
    (s.respond st d).config =
      s.config := rfl
@[simp] theorem State.respond_journal (st : RespStatus) (d : List Byte) :
    (s.respond st d).journal =
      s.journal := rfl
@[simp] theorem State.respond_apply (st : RespStatus) (d : List Byte) :
    (s.respond st d).apply =
      s.apply := rfl
@[simp] theorem State.respond_ckpt (st : RespStatus) (d : List Byte) :
    (s.respond st d).ckpt =
      s.ckpt := rfl
@[simp] theorem State.respond_reads (st : RespStatus) (d : List Byte) :
    (s.respond st d).reads =
      s.reads := rfl
@[simp] theorem State.respond_formed (st : RespStatus) (d : List Byte) :
    (s.respond st d).formed =
      s.formed := rfl
@[simp] theorem State.respond_marks (st : RespStatus) (d : List Byte) :
    (s.respond st d).marks =
      s.marks := rfl
@[simp] theorem State.respond_recovery (st : RespStatus) (d : List Byte) :
    (s.respond st d).recovery =
      s.recovery := rfl
@[simp] theorem State.respond_upper (st : RespStatus) (d : List Byte) :
    (s.respond st d).upper =
      s.upper := rfl
@[simp] theorem State.respond_lower (st : RespStatus) (d : List Byte) :
    (s.respond st d).lower =
      s.lower := rfl
@[simp] theorem State.respond_upperRetry (st : RespStatus) (d : List Byte) :
    (s.respond st d).upperRetry =
      s.upperRetry := rfl
@[simp] theorem State.respond_lowerRetry (st : RespStatus) (d : List Byte) :
    (s.respond st d).lowerRetry =
      s.lowerRetry := rfl
@[simp] theorem State.respond_credits (st : RespStatus) (d : List Byte) :
    (s.respond st d).credits =
      s.credits := rfl
@[simp] theorem State.respond_lowerCredits (st : RespStatus) (d : List Byte) :
    (s.respond st d).lowerCredits =
      s.lowerCredits := rfl
@[simp] theorem State.respond_tags (st : RespStatus) (d : List Byte) :
    (s.respond st d).tags =
      s.tags := rfl
@[simp] theorem State.respond_holdTimer (st : RespStatus) (d : List Byte) :
    (s.respond st d).holdTimer =
      s.holdTimer := rfl
@[simp] theorem State.respond_robin (st : RespStatus) (d : List Byte) :
    (s.respond st d).robin =
      s.robin := rfl
@[simp] theorem State.respond_claims (st : RespStatus) (d : List Byte) :
    (s.respond st d).claims =
      s.claims := rfl
@[simp] theorem State.respond_params (st : RespStatus) (d : List Byte) :
    (s.respond st d).params =
      s.params := rfl
@[simp] theorem State.respond_pendingEntry (st : RespStatus) (d : List Byte) :
    (s.respond st d).pendingEntry =
      s.pendingEntry := rfl
@[simp] theorem State.respond_response (st : RespStatus) (d : List Byte) :
    (s.respond st d).response =
      some { status := st, data := d } := rfl
@[simp] theorem State.respond_faults (st : RespStatus) (d : List Byte) :
    (s.respond st d).faults =
      s.faults := rfl
@[simp] theorem State.respond_faultSeq (st : RespStatus) (d : List Byte) :
    (s.respond st d).faultSeq =
      s.faultSeq := rfl

/-! ### freeRead -/

@[simp] theorem State.freeRead_pending (i : Nat) : (s.freeRead i).pending = s.pending := rfl
@[simp] theorem State.freeRead_pfwAsserted (i : Nat) :
    (s.freeRead i).pfwAsserted =
      s.pfwAsserted := rfl
@[simp] theorem State.freeRead_safeLine (i : Nat) : (s.freeRead i).safeLine = s.safeLine := rfl
@[simp] theorem State.freeRead_alert (i : Nat) : (s.freeRead i).alert = s.alert := rfl
@[simp] theorem State.freeRead_i2cAddress (i : Nat) :
    (s.freeRead i).i2cAddress =
      s.i2cAddress := rfl
@[simp] theorem State.freeRead_sent (i : Nat) : (s.freeRead i).sent = s.sent := rfl
@[simp] theorem State.freeRead_mode (i : Nat) : (s.freeRead i).mode = s.mode := rfl
@[simp] theorem State.freeRead_budgetTimer (i : Nat) :
    (s.freeRead i).budgetTimer =
      s.budgetTimer := rfl
@[simp] theorem State.freeRead_hold (i : Nat) : (s.freeRead i).hold = s.hold := rfl
@[simp] theorem State.freeRead_queue (i : Nat) : (s.freeRead i).queue = s.queue := rfl
@[simp] theorem State.freeRead_intake (i : Nat) : (s.freeRead i).intake = s.intake := rfl
@[simp] theorem State.freeRead_windows (i : Nat) : (s.freeRead i).windows = s.windows := rfl
@[simp] theorem State.freeRead_groups (i : Nat) : (s.freeRead i).groups = s.groups := rfl
@[simp] theorem State.freeRead_streams (i : Nat) : (s.freeRead i).streams = s.streams := rfl
@[simp] theorem State.freeRead_serial (i : Nat) : (s.freeRead i).serial = s.serial := rfl
@[simp] theorem State.freeRead_staging (i : Nat) : (s.freeRead i).staging = s.staging := rfl
@[simp] theorem State.freeRead_config (i : Nat) : (s.freeRead i).config = s.config := rfl
@[simp] theorem State.freeRead_journal (i : Nat) : (s.freeRead i).journal = s.journal := rfl
@[simp] theorem State.freeRead_apply (i : Nat) : (s.freeRead i).apply = s.apply := rfl
@[simp] theorem State.freeRead_ckpt (i : Nat) : (s.freeRead i).ckpt = s.ckpt := rfl
@[simp] theorem State.freeRead_reads (i : Nat) : (s.freeRead i).reads = s.reads.set i none := rfl
@[simp] theorem State.freeRead_formed (i : Nat) : (s.freeRead i).formed = s.formed := rfl
@[simp] theorem State.freeRead_marks (i : Nat) : (s.freeRead i).marks = s.marks := rfl
@[simp] theorem State.freeRead_recovery (i : Nat) : (s.freeRead i).recovery = s.recovery := rfl
@[simp] theorem State.freeRead_upper (i : Nat) : (s.freeRead i).upper = s.upper := rfl
@[simp] theorem State.freeRead_lower (i : Nat) : (s.freeRead i).lower = s.lower := rfl
@[simp] theorem State.freeRead_upperRetry (i : Nat) :
    (s.freeRead i).upperRetry =
      s.upperRetry := rfl
@[simp] theorem State.freeRead_lowerRetry (i : Nat) :
    (s.freeRead i).lowerRetry =
      s.lowerRetry := rfl
@[simp] theorem State.freeRead_credits (i : Nat) :
    (s.freeRead i).credits =
      s.credits.giveBack s.mode.advertises { wh := 0, wd := 0, rd := 1 } := rfl
@[simp] theorem State.freeRead_lowerCredits (i : Nat) :
    (s.freeRead i).lowerCredits =
      s.lowerCredits := rfl
@[simp] theorem State.freeRead_tags (i : Nat) : (s.freeRead i).tags = s.tags := rfl
@[simp] theorem State.freeRead_holdTimer (i : Nat) : (s.freeRead i).holdTimer = s.holdTimer := rfl
@[simp] theorem State.freeRead_robin (i : Nat) : (s.freeRead i).robin = s.robin := rfl
@[simp] theorem State.freeRead_claims (i : Nat) : (s.freeRead i).claims = s.claims := rfl
@[simp] theorem State.freeRead_params (i : Nat) : (s.freeRead i).params = s.params := rfl
@[simp] theorem State.freeRead_pendingEntry (i : Nat) :
    (s.freeRead i).pendingEntry =
      s.pendingEntry := rfl
@[simp] theorem State.freeRead_response (i : Nat) : (s.freeRead i).response = s.response := rfl
@[simp] theorem State.freeRead_faults (i : Nat) : (s.freeRead i).faults = s.faults := rfl
@[simp] theorem State.freeRead_faultSeq (i : Nat) : (s.freeRead i).faultSeq = s.faultSeq := rfl

/-! ### chargeLower -/

@[simp] theorem State.chargeLower_pending (b : LowerBody) :
    (s.chargeLower b).pending =
      s.pending := rfl
@[simp] theorem State.chargeLower_pfwAsserted (b : LowerBody) :
    (s.chargeLower b).pfwAsserted =
      s.pfwAsserted := rfl
@[simp] theorem State.chargeLower_safeLine (b : LowerBody) :
    (s.chargeLower b).safeLine =
      s.safeLine := rfl
@[simp] theorem State.chargeLower_alert (b : LowerBody) : (s.chargeLower b).alert = s.alert := rfl
@[simp] theorem State.chargeLower_i2cAddress (b : LowerBody) :
    (s.chargeLower b).i2cAddress =
      s.i2cAddress := rfl
@[simp] theorem State.chargeLower_sent (b : LowerBody) : (s.chargeLower b).sent = s.sent := rfl
@[simp] theorem State.chargeLower_mode (b : LowerBody) : (s.chargeLower b).mode = s.mode := rfl
@[simp] theorem State.chargeLower_budgetTimer (b : LowerBody) :
    (s.chargeLower b).budgetTimer =
      s.budgetTimer := rfl
@[simp] theorem State.chargeLower_hold (b : LowerBody) : (s.chargeLower b).hold = s.hold := rfl
@[simp] theorem State.chargeLower_queue (b : LowerBody) : (s.chargeLower b).queue = s.queue := rfl
@[simp] theorem State.chargeLower_intake (b : LowerBody) :
    (s.chargeLower b).intake =
      s.intake := rfl
@[simp] theorem State.chargeLower_windows (b : LowerBody) :
    (s.chargeLower b).windows =
      s.windows := rfl
@[simp] theorem State.chargeLower_groups (b : LowerBody) :
    (s.chargeLower b).groups =
      s.groups := rfl
@[simp] theorem State.chargeLower_streams (b : LowerBody) :
    (s.chargeLower b).streams =
      s.streams := rfl
@[simp] theorem State.chargeLower_serial (b : LowerBody) :
    (s.chargeLower b).serial =
      s.serial := rfl
@[simp] theorem State.chargeLower_staging (b : LowerBody) :
    (s.chargeLower b).staging =
      s.staging := rfl
@[simp] theorem State.chargeLower_config (b : LowerBody) :
    (s.chargeLower b).config =
      s.config := rfl
@[simp] theorem State.chargeLower_journal (b : LowerBody) :
    (s.chargeLower b).journal =
      s.journal := rfl
@[simp] theorem State.chargeLower_apply (b : LowerBody) : (s.chargeLower b).apply = s.apply := rfl
@[simp] theorem State.chargeLower_ckpt (b : LowerBody) : (s.chargeLower b).ckpt = s.ckpt := rfl
@[simp] theorem State.chargeLower_reads (b : LowerBody) : (s.chargeLower b).reads = s.reads := rfl
@[simp] theorem State.chargeLower_formed (b : LowerBody) :
    (s.chargeLower b).formed =
      s.formed := rfl
@[simp] theorem State.chargeLower_marks (b : LowerBody) : (s.chargeLower b).marks = s.marks := rfl
@[simp] theorem State.chargeLower_recovery (b : LowerBody) :
    (s.chargeLower b).recovery =
      s.recovery := rfl
@[simp] theorem State.chargeLower_upper (b : LowerBody) : (s.chargeLower b).upper = s.upper := rfl
@[simp] theorem State.chargeLower_lower (b : LowerBody) :
    (s.chargeLower b).lower =
      { s.lower with nextTx := s.lower.nextTx + 1#12, replayTimer := true } := rfl
@[simp] theorem State.chargeLower_upperRetry (b : LowerBody) :
    (s.chargeLower b).upperRetry =
      s.upperRetry := rfl
@[simp] theorem State.chargeLower_lowerRetry (b : LowerBody) :
    (s.chargeLower b).lowerRetry =
      s.lowerRetry := rfl
@[simp] theorem State.chargeLower_credits (b : LowerBody) :
    (s.chargeLower b).credits =
      s.credits := rfl
@[simp] theorem State.chargeLower_lowerCredits (b : LowerBody) :
    (s.chargeLower b).lowerCredits =
      { s.lowerCredits with consumed := s.lowerCredits.consumed.raise b.charge } := rfl
@[simp] theorem State.chargeLower_tags (b : LowerBody) : (s.chargeLower b).tags = s.tags := rfl
@[simp] theorem State.chargeLower_holdTimer (b : LowerBody) :
    (s.chargeLower b).holdTimer =
      s.holdTimer := rfl
@[simp] theorem State.chargeLower_robin (b : LowerBody) : (s.chargeLower b).robin = s.robin := rfl
@[simp] theorem State.chargeLower_claims (b : LowerBody) :
    (s.chargeLower b).claims =
      s.claims := rfl
@[simp] theorem State.chargeLower_params (b : LowerBody) :
    (s.chargeLower b).params =
      s.params := rfl
@[simp] theorem State.chargeLower_pendingEntry (b : LowerBody) :
    (s.chargeLower b).pendingEntry =
      s.pendingEntry := rfl
@[simp] theorem State.chargeLower_response (b : LowerBody) :
    (s.chargeLower b).response =
      s.response := rfl
@[simp] theorem State.chargeLower_faults (b : LowerBody) :
    (s.chargeLower b).faults =
      s.faults := rfl
@[simp] theorem State.chargeLower_faultSeq (b : LowerBody) :
    (s.chargeLower b).faultSeq =
      s.faultSeq := rfl

/-! ### enterSafe -/

@[simp] theorem State.enterSafe_pending : s.enterSafe.pending = s.pending := rfl
@[simp] theorem State.enterSafe_pfwAsserted : s.enterSafe.pfwAsserted = s.pfwAsserted := rfl
@[simp] theorem State.enterSafe_safeLine : s.enterSafe.safeLine = true := rfl
@[simp] theorem State.enterSafe_alert : s.enterSafe.alert = s.alert := rfl
@[simp] theorem State.enterSafe_i2cAddress : s.enterSafe.i2cAddress = s.i2cAddress := rfl
@[simp] theorem State.enterSafe_sent : s.enterSafe.sent = s.sent := rfl
@[simp] theorem State.enterSafe_mode : s.enterSafe.mode = .safe := rfl
@[simp] theorem State.enterSafe_budgetTimer : s.enterSafe.budgetTimer = none := rfl
@[simp] theorem State.enterSafe_hold : s.enterSafe.hold = s.hold := rfl
@[simp] theorem State.enterSafe_queue : s.enterSafe.queue = s.queue := rfl
@[simp] theorem State.enterSafe_intake : s.enterSafe.intake = s.intake := rfl
@[simp] theorem State.enterSafe_windows : s.enterSafe.windows = s.windows := rfl
@[simp] theorem State.enterSafe_groups : s.enterSafe.groups = s.groups := rfl
@[simp] theorem State.enterSafe_streams : s.enterSafe.streams = s.streams := rfl
@[simp] theorem State.enterSafe_serial : s.enterSafe.serial = s.serial := rfl
@[simp] theorem State.enterSafe_staging : s.enterSafe.staging = s.staging := rfl
@[simp] theorem State.enterSafe_config : s.enterSafe.config = s.config := rfl
@[simp] theorem State.enterSafe_journal : s.enterSafe.journal = s.journal := rfl
@[simp] theorem State.enterSafe_apply : s.enterSafe.apply = s.apply := rfl
@[simp] theorem State.enterSafe_ckpt : s.enterSafe.ckpt = s.ckpt := rfl
@[simp] theorem State.enterSafe_reads : s.enterSafe.reads = s.reads := rfl
@[simp] theorem State.enterSafe_formed : s.enterSafe.formed = s.formed := rfl
@[simp] theorem State.enterSafe_marks : s.enterSafe.marks = s.marks := rfl
@[simp] theorem State.enterSafe_recovery : s.enterSafe.recovery = s.recovery := rfl
@[simp] theorem State.enterSafe_upper : s.enterSafe.upper = s.upper := rfl
@[simp] theorem State.enterSafe_lower :
    s.enterSafe.lower =
      { s.lower with replayTimer := false } := rfl
@[simp] theorem State.enterSafe_upperRetry : s.enterSafe.upperRetry = s.upperRetry := rfl
@[simp] theorem State.enterSafe_lowerRetry : s.enterSafe.lowerRetry = s.lowerRetry := rfl
@[simp] theorem State.enterSafe_credits : s.enterSafe.credits = s.credits := rfl
@[simp] theorem State.enterSafe_lowerCredits : s.enterSafe.lowerCredits = s.lowerCredits := rfl
@[simp] theorem State.enterSafe_tags : s.enterSafe.tags = s.tags := rfl
@[simp] theorem State.enterSafe_holdTimer : s.enterSafe.holdTimer = s.holdTimer := rfl
@[simp] theorem State.enterSafe_robin : s.enterSafe.robin = s.robin := rfl
@[simp] theorem State.enterSafe_claims : s.enterSafe.claims = s.claims := rfl
@[simp] theorem State.enterSafe_params : s.enterSafe.params = s.params := rfl
@[simp] theorem State.enterSafe_pendingEntry : s.enterSafe.pendingEntry = s.pendingEntry := rfl
@[simp] theorem State.enterSafe_response : s.enterSafe.response = s.response := rfl
@[simp] theorem State.enterSafe_faults : s.enterSafe.faults = s.faults := rfl
@[simp] theorem State.enterSafe_faultSeq : s.enterSafe.faultSeq = s.faultSeq := rfl

/-! ### takeHead -/

@[simp] theorem State.takeHead_pending (rest : List QueueItem) :
    (s.takeHead rest).pending =
      s.pending := rfl
@[simp] theorem State.takeHead_pfwAsserted (rest : List QueueItem) :
    (s.takeHead rest).pfwAsserted =
      s.pfwAsserted := rfl
@[simp] theorem State.takeHead_safeLine (rest : List QueueItem) :
    (s.takeHead rest).safeLine =
      s.safeLine := rfl
@[simp] theorem State.takeHead_alert (rest : List QueueItem) :
    (s.takeHead rest).alert =
      s.alert := rfl
@[simp] theorem State.takeHead_i2cAddress (rest : List QueueItem) :
    (s.takeHead rest).i2cAddress =
      s.i2cAddress := rfl
@[simp] theorem State.takeHead_sent (rest : List QueueItem) : (s.takeHead rest).sent = s.sent := rfl
@[simp] theorem State.takeHead_mode (rest : List QueueItem) : (s.takeHead rest).mode = s.mode := rfl
@[simp] theorem State.takeHead_budgetTimer (rest : List QueueItem) :
    (s.takeHead rest).budgetTimer =
      s.budgetTimer := rfl
@[simp] theorem State.takeHead_hold (rest : List QueueItem) : (s.takeHead rest).hold = s.hold := rfl
@[simp] theorem State.takeHead_queue (rest : List QueueItem) : (s.takeHead rest).queue = rest := rfl
@[simp] theorem State.takeHead_intake (rest : List QueueItem) :
    (s.takeHead rest).intake =
      s.intake + 1#32 := rfl
@[simp] theorem State.takeHead_windows (rest : List QueueItem) :
    (s.takeHead rest).windows =
      s.windows := rfl
@[simp] theorem State.takeHead_groups (rest : List QueueItem) :
    (s.takeHead rest).groups =
      s.groups := rfl
@[simp] theorem State.takeHead_streams (rest : List QueueItem) :
    (s.takeHead rest).streams =
      s.streams := rfl
@[simp] theorem State.takeHead_serial (rest : List QueueItem) :
    (s.takeHead rest).serial =
      s.serial := rfl
@[simp] theorem State.takeHead_staging (rest : List QueueItem) :
    (s.takeHead rest).staging =
      s.staging := rfl
@[simp] theorem State.takeHead_config (rest : List QueueItem) :
    (s.takeHead rest).config =
      s.config := rfl
@[simp] theorem State.takeHead_journal (rest : List QueueItem) :
    (s.takeHead rest).journal =
      s.journal := rfl
@[simp] theorem State.takeHead_apply (rest : List QueueItem) :
    (s.takeHead rest).apply =
      s.apply := rfl
@[simp] theorem State.takeHead_ckpt (rest : List QueueItem) : (s.takeHead rest).ckpt = s.ckpt := rfl
@[simp] theorem State.takeHead_reads (rest : List QueueItem) :
    (s.takeHead rest).reads =
      s.reads := rfl
@[simp] theorem State.takeHead_formed (rest : List QueueItem) :
    (s.takeHead rest).formed =
      s.formed := rfl
@[simp] theorem State.takeHead_marks (rest : List QueueItem) :
    (s.takeHead rest).marks =
      s.marks := rfl
@[simp] theorem State.takeHead_recovery (rest : List QueueItem) :
    (s.takeHead rest).recovery =
      s.recovery := rfl
@[simp] theorem State.takeHead_upper (rest : List QueueItem) :
    (s.takeHead rest).upper =
      s.upper := rfl
@[simp] theorem State.takeHead_lower (rest : List QueueItem) :
    (s.takeHead rest).lower =
      s.lower := rfl
@[simp] theorem State.takeHead_upperRetry (rest : List QueueItem) :
    (s.takeHead rest).upperRetry =
      s.upperRetry := rfl
@[simp] theorem State.takeHead_lowerRetry (rest : List QueueItem) :
    (s.takeHead rest).lowerRetry =
      s.lowerRetry := rfl
@[simp] theorem State.takeHead_credits (rest : List QueueItem) :
    (s.takeHead rest).credits =
      s.credits := rfl
@[simp] theorem State.takeHead_lowerCredits (rest : List QueueItem) :
    (s.takeHead rest).lowerCredits =
      s.lowerCredits := rfl
@[simp] theorem State.takeHead_tags (rest : List QueueItem) : (s.takeHead rest).tags = s.tags := rfl
@[simp] theorem State.takeHead_holdTimer (rest : List QueueItem) :
    (s.takeHead rest).holdTimer =
      s.holdTimer := rfl
@[simp] theorem State.takeHead_robin (rest : List QueueItem) :
    (s.takeHead rest).robin =
      s.robin := rfl
@[simp] theorem State.takeHead_claims (rest : List QueueItem) :
    (s.takeHead rest).claims =
      s.claims := rfl
@[simp] theorem State.takeHead_params (rest : List QueueItem) :
    (s.takeHead rest).params =
      s.params := rfl
@[simp] theorem State.takeHead_pendingEntry (rest : List QueueItem) :
    (s.takeHead rest).pendingEntry =
      s.pendingEntry := rfl
@[simp] theorem State.takeHead_response (rest : List QueueItem) :
    (s.takeHead rest).response =
      s.response := rfl
@[simp] theorem State.takeHead_faults (rest : List QueueItem) :
    (s.takeHead rest).faults =
      s.faults := rfl
@[simp] theorem State.takeHead_faultSeq (rest : List QueueItem) :
    (s.takeHead rest).faultSeq =
      s.faultSeq := rfl

/-! ### setPort -/

@[simp] theorem State.setPort_pending (l : Link) (p : Port) : (s.setPort l p).pending = s.pending := by
  cases l <;> rfl
@[simp] theorem State.setPort_pfwAsserted (l : Link) (p : Port) : (s.setPort l p).pfwAsserted = s.pfwAsserted := by
  cases l <;> rfl
@[simp] theorem State.setPort_safeLine (l : Link) (p : Port) : (s.setPort l p).safeLine = s.safeLine := by
  cases l <;> rfl
@[simp] theorem State.setPort_alert (l : Link) (p : Port) : (s.setPort l p).alert = s.alert := by
  cases l <;> rfl
@[simp] theorem State.setPort_i2cAddress (l : Link) (p : Port) : (s.setPort l p).i2cAddress = s.i2cAddress := by
  cases l <;> rfl
@[simp] theorem State.setPort_sent (l : Link) (p : Port) : (s.setPort l p).sent = s.sent := by
  cases l <;> rfl
@[simp] theorem State.setPort_mode (l : Link) (p : Port) : (s.setPort l p).mode = s.mode := by
  cases l <;> rfl
@[simp] theorem State.setPort_budgetTimer (l : Link) (p : Port) : (s.setPort l p).budgetTimer = s.budgetTimer := by
  cases l <;> rfl
@[simp] theorem State.setPort_hold (l : Link) (p : Port) : (s.setPort l p).hold = s.hold := by
  cases l <;> rfl
@[simp] theorem State.setPort_queue (l : Link) (p : Port) : (s.setPort l p).queue = s.queue := by
  cases l <;> rfl
@[simp] theorem State.setPort_intake (l : Link) (p : Port) : (s.setPort l p).intake = s.intake := by
  cases l <;> rfl
@[simp] theorem State.setPort_windows (l : Link) (p : Port) : (s.setPort l p).windows = s.windows := by
  cases l <;> rfl
@[simp] theorem State.setPort_groups (l : Link) (p : Port) : (s.setPort l p).groups = s.groups := by
  cases l <;> rfl
@[simp] theorem State.setPort_streams (l : Link) (p : Port) : (s.setPort l p).streams = s.streams := by
  cases l <;> rfl
@[simp] theorem State.setPort_serial (l : Link) (p : Port) : (s.setPort l p).serial = s.serial := by
  cases l <;> rfl
@[simp] theorem State.setPort_staging (l : Link) (p : Port) : (s.setPort l p).staging = s.staging := by
  cases l <;> rfl
@[simp] theorem State.setPort_config (l : Link) (p : Port) : (s.setPort l p).config = s.config := by
  cases l <;> rfl
@[simp] theorem State.setPort_journal (l : Link) (p : Port) : (s.setPort l p).journal = s.journal := by
  cases l <;> rfl
@[simp] theorem State.setPort_apply (l : Link) (p : Port) : (s.setPort l p).apply = s.apply := by
  cases l <;> rfl
@[simp] theorem State.setPort_ckpt (l : Link) (p : Port) : (s.setPort l p).ckpt = s.ckpt := by
  cases l <;> rfl
@[simp] theorem State.setPort_reads (l : Link) (p : Port) : (s.setPort l p).reads = s.reads := by
  cases l <;> rfl
@[simp] theorem State.setPort_formed (l : Link) (p : Port) : (s.setPort l p).formed = s.formed := by
  cases l <;> rfl
@[simp] theorem State.setPort_marks (l : Link) (p : Port) : (s.setPort l p).marks = s.marks := by
  cases l <;> rfl
@[simp] theorem State.setPort_recovery (l : Link) (p : Port) : (s.setPort l p).recovery = s.recovery := by
  cases l <;> rfl
@[simp] theorem State.setPort_upperRetry (l : Link) (p : Port) : (s.setPort l p).upperRetry = s.upperRetry := by
  cases l <;> rfl
@[simp] theorem State.setPort_lowerRetry (l : Link) (p : Port) : (s.setPort l p).lowerRetry = s.lowerRetry := by
  cases l <;> rfl
@[simp] theorem State.setPort_credits (l : Link) (p : Port) : (s.setPort l p).credits = s.credits := by
  cases l <;> rfl
@[simp] theorem State.setPort_lowerCredits (l : Link) (p : Port) : (s.setPort l p).lowerCredits = s.lowerCredits := by
  cases l <;> rfl
@[simp] theorem State.setPort_tags (l : Link) (p : Port) : (s.setPort l p).tags = s.tags := by
  cases l <;> rfl
@[simp] theorem State.setPort_holdTimer (l : Link) (p : Port) : (s.setPort l p).holdTimer = s.holdTimer := by
  cases l <;> rfl
@[simp] theorem State.setPort_robin (l : Link) (p : Port) : (s.setPort l p).robin = s.robin := by
  cases l <;> rfl
@[simp] theorem State.setPort_claims (l : Link) (p : Port) : (s.setPort l p).claims = s.claims := by
  cases l <;> rfl
@[simp] theorem State.setPort_params (l : Link) (p : Port) : (s.setPort l p).params = s.params := by
  cases l <;> rfl
@[simp] theorem State.setPort_pendingEntry (l : Link) (p : Port) : (s.setPort l p).pendingEntry = s.pendingEntry := by
  cases l <;> rfl
@[simp] theorem State.setPort_response (l : Link) (p : Port) : (s.setPort l p).response = s.response := by
  cases l <;> rfl
@[simp] theorem State.setPort_faults (l : Link) (p : Port) : (s.setPort l p).faults = s.faults := by
  cases l <;> rfl
@[simp] theorem State.setPort_faultSeq (l : Link) (p : Port) : (s.setPort l p).faultSeq = s.faultSeq := by
  cases l <;> rfl
@[simp] theorem State.setPort_port (l : Link) (p : Port) : (s.setPort l p).port l = p := by
  cases l <;> rfl
@[simp] theorem State.setPort_upper_upper (p : Port) : (s.setPort .upper p).upper = p := rfl
@[simp] theorem State.setPort_upper_lower (p : Port) : (s.setPort .upper p).lower = s.lower := rfl
@[simp] theorem State.setPort_lower_upper (p : Port) : (s.setPort .lower p).upper = s.upper := rfl
@[simp] theorem State.setPort_lower_lower (p : Port) : (s.setPort .lower p).lower = p := rfl

end Sys2Proof.Machine
end

