-- ==== Sys2Proof/Laws/Frame.lean ====
section
/-! SUPPORT. The fixed part of a state, the queue of commands, the pins and the management port's
configuration, is left as it was by every operation but the port's own commands and the resets. -/

namespace Sys2Proof.Machine

/-- A fold of operations that keep the fixed part keeps it. -/
theorem foldl_fixed {α : Type} (f : State → α → State) (h : ∀ s a, (f s a).fixed = s.fixed)
    (l : List α) (s : State) : (l.foldl f s).fixed = s.fixed := by
  induction l generalizing s with
  | nil => rfl
  | cons a l ih => rw [List.foldl_cons, ih, h]

@[simp] theorem State.emit_fixed (s : State) (u : Sent) : (s.emit u).fixed = s.fixed := rfl
@[simp] theorem State.setMode_fixed (s : State) (m : Mode) : (s.setMode m).fixed = s.fixed := rfl
@[simp] theorem State.appendFaultIn_fixed (s : State) (mode : Mode) (cause : Cause) (f : FaultFields) :
    (s.appendFaultIn mode cause f).fixed = s.fixed := rfl
@[simp] theorem State.appendFault_fixed (s : State) (cause : Cause) (f : FaultFields) :
    (s.appendFault cause f).fixed = s.fixed := rfl
@[simp] theorem State.setPort_fixed (s : State) (l : Link) (p : Port) :
    (s.setPort l p).fixed = s.fixed := by
  unfold State.setPort
  split <;> rfl
@[simp] theorem State.returnCredits_fixed (s : State) (a : Amount) :
    (s.returnCredits a).fixed = s.fixed := rfl
@[simp] theorem State.modifyGroup_fixed (s : State) (r : Nat) (f : Group → Group) :
    (s.modifyGroup r f).fixed = s.fixed := rfl
@[simp] theorem State.freeGroup_fixed (s : State) (r : Nat) : (s.freeGroup r).fixed = s.fixed := rfl
@[simp] theorem State.modifyStream_fixed (s : State) (i : Nat) (f : StreamState → StreamState) :
    (s.modifyStream i f).fixed = s.fixed := rfl
@[simp] theorem State.modifyRead_fixed (s : State) (i : Nat) (f : ReadRecord → ReadRecord) :
    (s.modifyRead i f).fixed = s.fixed := rfl
@[simp] theorem State.setTag_fixed (s : State) (t : Nat) (v : LowerTag) :
    (s.setTag t v).fixed = s.fixed := rfl
@[simp] theorem State.stage_fixed (s : State) (e : Entry) : (s.stage e).fixed = s.fixed := rfl
@[simp] theorem State.freeEntriesBy_fixed (s : State) (p : Entry → Bool) :
    (s.freeEntriesBy p).fixed = s.fixed := rfl
@[simp] theorem State.freeEntryOnce_fixed (s : State) (p : Entry → Bool) :
    (s.freeEntryOnce p).fixed = s.fixed := by
  unfold State.freeEntryOnce
  split <;> rfl
@[simp] theorem State.mapEntries_fixed (s : State) (p : Entry → Bool) (f : EntryKind → EntryKind) :
    (s.mapEntries p f).fixed = s.fixed := rfl
@[simp] theorem State.raiseDurable_fixed (s : State) (count : Num32) :
    (s.raiseDurable count).fixed = s.fixed := rfl
@[simp] theorem State.markGranted_fixed (s : State) : (s.markGranted).fixed = s.fixed := rfl
@[simp] theorem State.countPassSend_fixed (s : State) : (s.countPassSend).fixed = s.fixed := rfl
@[simp] theorem State.withJournal_fixed (s : State) (f : Journal → Journal) :
    (s.withJournal f).fixed = s.fixed := rfl
@[simp] theorem State.withCkpt_fixed (s : State) (f : Checkpoint → Checkpoint) :
    (s.withCkpt f).fixed = s.fixed := rfl
@[simp] theorem State.withFlight_fixed (s : State) (f : CkptFlight → CkptFlight) :
    (s.withFlight f).fixed = s.fixed := rfl
@[simp] theorem State.withRecovery_fixed (s : State) (f : Recovery → Recovery) :
    (s.withRecovery f).fixed = s.fixed := rfl
@[simp] theorem State.withScan_fixed (s : State) (f : Scan → Scan) :
    (s.withScan f).fixed = s.fixed := rfl
@[simp] theorem State.discard_fixed (s : State) (mode : Mode) (cause : Cause) (r : Nat) :
    (s.discard mode cause r).fixed = s.fixed := by
  unfold State.discard
  split <;> simp
@[simp] theorem State.discardStream_fixed (mode : Mode) (cause : Cause) (s : State) (i : Nat) :
    (State.discardStream mode cause s i).fixed = s.fixed := by
  unfold State.discardStream
  split <;> simp
@[simp] theorem State.discardOpen_fixed (s : State) (mode : Mode) (cause : Cause) :
    (s.discardOpen mode cause).fixed = s.fixed := by
  exact foldl_fixed _ (fun s i => by simp) _ _
@[simp] theorem State.memberWrite_fixed (s : State) (n : Num32) (r : Request) (inJournal : Bool) (i : Nat) (g : Group) :
    (s.memberWrite n r inJournal i g).fixed = s.fixed := by
  unfold State.memberWrite
  split <;> rfl
@[simp] theorem State.openGroup_fixed (s : State) (stream : Nat) (i : Nat) :
    (s.openGroup stream i).fixed = s.fixed := rfl
@[simp] theorem State.groupData_fixed (s : State) (n : Num32) (r : Request) (inJournal : Bool) :
    (s.groupData n r inJournal).fixed = s.fixed := by
  unfold State.groupData
  split <;> (try split) <;> simp
@[simp] theorem State.closeGroup_fixed (s : State) (n : Num32) (i : Nat) (g : Group) :
    (s.closeGroup n i g).fixed = s.fixed := by
  unfold State.closeGroup
  split <;> rfl
@[simp] theorem State.judgeClose_fixed (s : State) (n : Num32) (r : Request) (i : Nat) (g : Group) :
    (s.judgeClose n r i g).fixed = s.fixed := by
  unfold State.judgeClose
  split <;> (try split) <;> simp
@[simp] theorem State.emptyClose_fixed (s : State) (r : Request) :
    (s.emptyClose r).fixed = s.fixed := by
  unfold State.emptyClose
  split <;> rfl
@[simp] theorem State.close_fixed (s : State) (n : Num32) (r : Request) :
    (s.close n r).fixed = s.fixed := by
  unfold State.close
  split <;> (try split) <;> simp
@[simp] theorem State.groupWrite_fixed (s : State) (n : Num32) (r : Request) (inJournal : Bool) :
    (s.groupWrite n r inJournal).fixed = s.fixed := by
  unfold State.groupWrite
  split <;> simp
@[simp] theorem State.clearDiscards_fixed (s : State) (i : Nat) :
    (s.clearDiscards i).fixed = s.fixed := rfl
@[simp] theorem State.restoreDiscards_fixed (s : State) (i : Nat) (t : Taken) :
    (s.restoreDiscards i t).fixed = s.fixed := rfl
@[simp] theorem State.freeRead_fixed (s : State) (i : Nat) : (s.freeRead i).fixed = s.fixed := rfl
@[simp] theorem State.dropRead_fixed (s : State) (i : Nat) : (s.dropRead i).fixed = s.fixed := by
  unfold State.dropRead
  split <;> (try split) <;> simp
@[simp] theorem State.formRead_fixed (s : State) (i : Nat) (status : Status) (data : List Byte) :
    (s.formRead i status data).fixed = s.fixed := by
  unfold State.formRead
  repeat' split
  all_goals first | rfl | simp
@[simp] theorem State.handRead_fixed (s : State) (n : Num32) (r : Request) (orphan : Bool) :
    (s.handRead n r orphan).fixed = s.fixed := by
  unfold State.handRead; try dsimp only
  repeat' split
  all_goals first | (simp; done) | rfl | (simp; rfl)
@[simp] theorem State.takeStreamFlush_fixed (s : State) (i : Nat) (stream : Nat) (bound : Option Num32) :
    (s.takeStreamFlush i stream bound).fixed = s.fixed := by
  simp [State.takeStreamFlush]
@[simp] theorem State.settleFlush_fixed (s : State) (i : Nat) :
    (s.settleFlush i).fixed = s.fixed := by
  unfold State.settleFlush
  dsimp only
  repeat' split
  all_goals simp
@[simp] theorem State.settleFlushes_fixed (s : State) : (s.settleFlushes).fixed = s.fixed := by
  unfold State.settleFlushes; split
  · exact foldl_fixed _ (fun s i => by simp) _ _
  · rfl
@[simp] theorem State.detachTag_fixed (s : State) (t : Nat) : (s.detachTag t).fixed = s.fixed := by
  unfold State.detachTag
  split <;> rfl
@[simp] theorem State.failRead_fixed (s : State) (i : Nat) : (s.failRead i).fixed = s.fixed := by
  unfold State.failRead
  split <;> (try split) <;> simp
@[simp] theorem State.failReads_fixed (s : State) : (s.failReads).fixed = s.fixed := by
  exact foldl_fixed _ (fun s i => by simp) _ _
@[simp] theorem State.answerRead_fixed (s : State) (i : Nat) (a : Answer) :
    (s.answerRead i a).fixed = s.fixed := by
  simp [State.answerRead]
@[simp] theorem State.orphanRead_fixed (s : State) (i : Nat) :
    (s.orphanRead i).fixed = s.fixed := rfl
@[simp] theorem State.dropFormed_fixed (s : State) (f : Formed) :
    (s.dropFormed f).fixed = s.fixed := by
  unfold State.dropFormed
  split <;> simp
@[simp] theorem State.orphanReads_fixed (s : State) : (s.orphanReads).fixed = s.fixed := by
  unfold State.orphanReads; dsimp only
  rw [foldl_fixed State.dropFormed (fun s i => by simp)]
  exact foldl_fixed State.orphanRead (fun s i => by simp) _ s
@[simp] theorem State.sendInit_fixed (s : State) (l : Link) (kind : TrainKind) (reply : Bool) :
    (s.sendInit l kind reply).fixed = s.fixed := rfl
@[simp] theorem State.sendAck_fixed (s : State) (l : Link) : (s.sendAck l).fixed = s.fixed := by
  simp [State.sendAck]
@[simp] theorem State.sendNak_fixed (s : State) (l : Link) : (s.sendNak l).fixed = s.fixed := by
  unfold State.sendNak
  split <;> simp
@[simp] theorem State.sendCredit_fixed (s : State) : (s.sendCredit).fixed = s.fixed := rfl
@[simp] theorem State.setLowerRetry_fixed (s : State) (buffer : List LowerPacket) :
    (s.setLowerRetry buffer).fixed = s.fixed := rfl
@[simp] theorem State.pruneLower_fixed (s : State) : (s.pruneLower).fixed = s.fixed := rfl
@[simp] theorem State.chargeLower_fixed (s : State) (b : LowerBody) :
    (s.chargeLower b).fixed = s.fixed := rfl
@[simp] theorem State.sendLower_fixed (s : State) (b : LowerBody) :
    (s.sendLower b).fixed = s.fixed := rfl
@[simp] theorem State.resendGo_fixed (s : State) (done : List LowerPacket) (todo : List LowerPacket) :
    (s.resendGo done todo).fixed = s.fixed := by
  induction todo generalizing s done with
  | nil => rfl
  | cons p rest ih =>
    unfold State.resendGo; repeat' split
    all_goals first | rfl | (simp [ih])
@[simp] theorem State.resend_fixed (s : State) : (s.resend).fixed = s.fixed := by
  unfold State.resend
  split <;> simp
@[simp] theorem State.resendOn_fixed (s : State) (l : Link) : (s.resendOn l).fixed = s.fixed := by
  cases l <;> simp [State.resendOn]
@[simp] theorem State.replay_fixed (s : State) (l : Link) : (s.replay l).fixed = s.fixed := by
  unfold State.replay; try dsimp only
  repeat' split
  all_goals first | (simp; done) | rfl | (simp; rfl)
@[simp] theorem State.newCreditSession_fixed (s : State) (l : Link) :
    (s.newCreditSession l).fixed = s.fixed := by
  unfold State.newCreditSession
  split <;> rfl
@[simp] theorem State.startTraining_fixed (s : State) (l : Link) :
    (s.startTraining l).fixed = s.fixed := by
  simp [State.startTraining]
@[simp] theorem State.upperDown_fixed (s : State) : (s.upperDown).fixed = s.fixed := by
  unfold State.upperDown; dsimp only; split
  all_goals simp
  all_goals first | rfl | exact (State.orphanReads_fixed _).trans rfl
@[simp] theorem State.lowerDown_fixed (s : State) : (s.lowerDown).fixed = s.fixed := rfl
@[simp] theorem State.linkDown_fixed (s : State) (l : Link) : (s.linkDown l).fixed = s.fixed := by
  unfold State.linkDown
  split <;> simp
@[simp] theorem State.takeLimits_fixed (s : State) (l : Link) (limits : Limits) :
    (s.takeLimits l limits).fixed = s.fixed := by
  unfold State.takeLimits
  split <;> rfl
@[simp] theorem State.upTimers_fixed (s : State) (l : Link) : (s.upTimers l).fixed = s.fixed := by
  unfold State.upTimers
  split <;> rfl
@[simp] theorem State.newLowerSession_fixed (s : State) (l : Link) :
    (s.newLowerSession l).fixed = s.fixed := by
  unfold State.newLowerSession
  split <;> rfl
@[simp] theorem State.upFromTraining_fixed (s : State) (l : Link) :
    (s.upFromTraining l).fixed = s.fixed := by
  simp [State.upFromTraining]
@[simp] theorem State.upFromRetrain_fixed (s : State) (l : Link) :
    (s.upFromRetrain l).fixed = s.fixed := by
  unfold State.upFromRetrain
  dsimp only
  split <;> simp
@[simp] theorem State.tryUp_fixed (s : State) (l : Link) : (s.tryUp l).fixed = s.fixed := by
  unfold State.tryUp
  split <;> (try split) <;> simp
@[simp] theorem State.enterRetrain_fixed (s : State) (l : Link) (byPartner : Bool) :
    (s.enterRetrain l byPartner).fixed = s.fixed := by
  unfold State.enterRetrain; try dsimp only
  repeat' split
  all_goals first | (simp; done) | rfl | (simp; rfl)
@[simp] theorem State.matchingInit_fixed (s : State) (l : Link) (kind : TrainKind) (reply : Bool) (limits : Limits) :
    (s.matchingInit l kind reply limits).fixed = s.fixed := by
  unfold State.matchingInit
  split <;> simp
@[simp] theorem State.handleInit_fixed (s : State) (l : Link) (kind : TrainKind) (reply : Bool) (limits : Limits) :
    (s.handleInit l kind reply limits).fixed = s.fixed := by
  unfold State.handleInit
  split <;> simp
@[simp] theorem State.handleCredit_fixed (s : State) (l : Link) (limits : Limits) :
    (s.handleCredit l limits).fixed = s.fixed := by
  unfold State.handleCredit
  split <;> simp
@[simp] theorem State.ackPackets_fixed (s : State) (l : Link) (k : Nat) :
    (s.ackPackets l k).fixed = s.fixed := by
  unfold State.ackPackets
  split <;> rfl
@[simp] theorem State.forwardProgress_fixed (s : State) (l : Link) :
    (s.forwardProgress l).fixed = s.fixed := by
  simp [State.forwardProgress]
@[simp] theorem State.acknowledge_fixed (s : State) (l : Link) (k : Nat) :
    (s.acknowledge l k).fixed = s.fixed := by
  unfold State.acknowledge
  split <;> simp
@[simp] theorem State.handleAck_fixed (s : State) (l : Link) (n : Seq) :
    (s.handleAck l n).fixed = s.fixed := by
  unfold State.handleAck
  split <;> (try split) <;> simp
@[simp] theorem State.countedReplay_fixed (s : State) (l : Link) :
    (s.countedReplay l).fixed = s.fixed := by
  unfold State.countedReplay
  split <;> simp
@[simp] theorem State.handleNak_fixed (s : State) (l : Link) (n : Seq) :
    (s.handleNak l n).fixed = s.fixed := by
  unfold State.handleNak
  dsimp only
  repeat' split
  all_goals simp
@[simp] theorem State.damaged_fixed (s : State) (l : Link) : (s.damaged l).fixed = s.fixed := by
  unfold State.damaged
  split <;> simp
@[simp] theorem State.ackExpiry_fixed (s : State) (l : Link) : (s.ackExpiry l).fixed = s.fixed := by
  unfold State.ackExpiry
  split <;> simp
@[simp] theorem State.replayExpiry_fixed (s : State) (l : Link) :
    (s.replayExpiry l).fixed = s.fixed := by
  unfold State.replayExpiry
  dsimp only
  split <;> (try split) <;> simp
@[simp] theorem State.trainingExpiry_fixed (s : State) (l : Link) :
    (s.trainingExpiry l).fixed = s.fixed := by
  unfold State.trainingExpiry
  split <;> (try split) <;> simp
@[simp] theorem State.enterSafe_fixed (s : State) : (s.enterSafe).fixed = s.fixed := rfl
@[simp] theorem State.failDirect_fixed (s : State) (r : Request) (orphan : Bool) :
    (s.failDirect r orphan).fixed = s.fixed := by
  unfold State.failDirect
  dsimp only
  split <;> rfl
@[simp] theorem State.purgeItem_fixed (s : State) (orphan : Bool) (item : QueueItem) :
    (s.purgeItem orphan item).fixed = s.fixed := by
  unfold State.purgeItem
  split <;> (try split) <;> simp
@[simp] theorem State.purgeItems_fixed (s : State) (items : List QueueItem) :
    (s.purgeItems items).fixed = s.fixed := by
  induction items generalizing s with
  | nil => rfl
  | cons item rest ih => unfold State.purgeItems; rw [ih]; simp
@[simp] theorem State.purgeQueue_fixed (s : State) : (s.purgeQueue).fixed = s.fixed := by
  exact State.purgeItems_fixed _ _
@[simp] theorem State.leaveHoldup_fixed (s : State) : (s.leaveHoldup).fixed = s.fixed := by
  simp [State.leaveHoldup]
@[simp] theorem State.enterHalted_fixed (s : State) (cause : Cause) (f : FaultFields) :
    (s.enterHalted cause f).fixed = s.fixed := by
  exact (State.failReads_fixed _).trans rfl
@[simp] theorem State.enterOperating_fixed (s : State) : (s.enterOperating).fixed = s.fixed := rfl
@[simp] theorem State.reportError_fixed (s : State) (cause : Cause) (f : FaultFields) :
    (s.reportError cause f).fixed = s.fixed := by
  unfold State.reportError
  split <;> simp
@[simp] theorem State.mediaError_fixed (s : State) (f : FaultFields) :
    (s.mediaError f).fixed = s.fixed := by
  simp [State.mediaError]
@[simp] theorem State.lowerLoss_fixed (s : State) : (s.lowerLoss).fixed = s.fixed := by
  exact (State.reportError_fixed _ _ _).trans rfl
@[simp] theorem State.recoveryFailed_fixed (s : State) : (s.recoveryFailed).fixed = s.fixed := by
  simp [State.recoveryFailed]
@[simp] theorem State.markJournalDone_fixed (s : State) : (s.markJournalDone).fixed = s.fixed := by
  unfold State.markJournalDone
  split <;> rfl
@[simp] theorem State.reportDrain_fixed (s : State) : (s.reportDrain).fixed = s.fixed := rfl
@[simp] theorem State.markDrainDone_fixed (s : State) : (s.markDrainDone).fixed = s.fixed := by
  unfold State.markDrainDone
  split <;> (try split) <;> simp
@[simp] theorem State.markFenceDone_fixed (s : State) : (s.markFenceDone).fixed = s.fixed := by
  unfold State.markFenceDone
  split <;> rfl
@[simp] theorem State.finishHoldup_fixed (s : State) : (s.finishHoldup).fixed = s.fixed := by
  unfold State.finishHoldup
  split
  · exact (State.leaveHoldup_fixed _).trans rfl
  · rfl
@[simp] theorem State.settleHoldup_fixed (s : State) : (s.settleHoldup).fixed = s.fixed := by
  unfold State.settleHoldup
  split <;> simp
@[simp] theorem State.purge_fixed (s : State) : (s.purge).fixed = s.fixed := by
  exact State.purgeItems_fixed _ _
@[simp] theorem State.enterHoldup_fixed (s : State) : (s.enterHoldup).fixed = s.fixed := by
  unfold State.enterHoldup; dsimp only
  rw [State.discardOpen_fixed, State.purge_fixed, State.failReads_fixed]; rfl
@[simp] theorem State.pfwTransition_fixed (s : State) : (s.pfwTransition).fixed = s.fixed := by
  unfold State.pfwTransition
  split <;> simp
@[simp] theorem State.budgetExpiry_fixed (s : State) : (s.budgetExpiry).fixed = s.fixed := by
  unfold State.budgetExpiry
  split
  · exact (State.leaveHoldup_fixed _).trans rfl
  · rfl
@[simp] theorem State.reserveGroup_fixed (s : State) (r : Nat) (rest : List Nat) (m : Nat) (head : Pos) :
    (s.reserveGroup r rest m head).fixed = s.fixed := rfl
@[simp] theorem State.setSpaceWait_fixed (s : State) (waits : Bool) :
    (s.setSpaceWait waits).fixed = s.fixed := rfl
@[simp] theorem State.reserve_fixed (s : State) : (s.reserve).fixed = s.fixed := by
  unfold State.reserve
  repeat' split
  all_goals simp
@[simp] theorem State.commitGroup_fixed (s : State) (r : Nat) :
    (s.commitGroup r).fixed = s.fixed := rfl
@[simp] theorem State.followCommit_fixed (s : State) (r : Nat) :
    (s.followCommit r).fixed = s.fixed := by
  unfold State.followCommit
  split <;> (try split) <;> simp
@[simp] theorem State.groupFenceOk_fixed (s : State) (n : Num32) :
    (s.groupFenceOk n).fixed = s.fixed := by
  have follow : ∀ s : State, ∀ i, (State.followCommit s i).fixed = s.fixed := fun s i => by simp
  unfold State.groupFenceOk
  split
  · rfl
  · split <;> (try split) <;> simp [foldl_fixed _ follow]
@[simp] theorem State.groupFence_fixed (s : State) (n : Num32) (status : ModStatus) :
    (s.groupFence n status).fixed = s.fixed := by
  unfold State.groupFence
  split <;> simp
@[simp] theorem State.retire_fixed (s : State) (f : CkptFlight) : (s.retire f).fixed = s.fixed := by
  unfold State.retire; dsimp only; split
  all_goals
    simp only [State.reserve_fixed, State.withCkpt_fixed]
    rw [foldl_fixed State.freeGroup (fun s i => by simp)]; simp
@[simp] theorem State.ckptFenceError_fixed (s : State) : (s.ckptFenceError).fixed = s.fixed := by
  simp [State.ckptFenceError]
@[simp] theorem State.fenceADone_fixed (s : State) (status : ModStatus) :
    (s.fenceADone status).fixed = s.fixed := by
  unfold State.fenceADone
  split <;> simp
@[simp] theorem State.fenceBDone_fixed (s : State) (status : ModStatus) :
    (s.fenceBDone status).fixed = s.fixed := by
  unfold State.fenceBDone
  split <;> (try split) <;> simp
@[simp] theorem State.startCheckpoint_fixed (s : State) : (s.startCheckpoint).fixed = s.fixed := by
  unfold State.startCheckpoint
  split <;> rfl
@[simp] theorem State.takeApply_fixed (s : State) : (s.takeApply).fixed = s.fixed := by
  unfold State.takeApply
  split <;> (try split) <;> rfl
@[simp] theorem State.selectAnchor_fixed (s : State) : (s.selectAnchor).fixed = s.fixed := by
  unfold State.selectAnchor
  split <;> simp
@[simp] theorem State.judgeAnchors_fixed (s : State) : (s.judgeAnchors).fixed = s.fixed := by
  unfold State.judgeAnchors
  split <;> (try split) <;> simp
@[simp] theorem State.anchorAnswer_fixed (s : State) (slot : Nat) (a : Answer) :
    (s.anchorAnswer slot a).fixed = s.fixed := by
  unfold State.anchorAnswer
  dsimp only
  split <;> simp
@[simp] theorem State.endScan_fixed (s : State) : (s.endScan).fixed = s.fixed := rfl
@[simp] theorem State.putScan_fixed (s : State) (sc : Scan) : (s.putScan sc).fixed = s.fixed := rfl
@[simp] theorem State.judgeDescriptor_fixed (s : State) (c : JournalConfig) (sc : Scan) (k : Nat) (a : Answer) :
    (s.judgeDescriptor c sc k a).fixed = s.fixed := by
  unfold State.judgeDescriptor
  split <;> (try split) <;> simp
@[simp] theorem State.judgeData_fixed (s : State) (sc : Scan) (k : Nat) (a : Answer) :
    (s.judgeData sc k a).fixed = s.fixed := by
  unfold State.judgeData
  split <;> rfl
@[simp] theorem State.judgeCommit_fixed (s : State) (sc : Scan) (m : Nat) (a : Answer) :
    (s.judgeCommit sc m a).fixed = s.fixed := by
  unfold State.judgeCommit
  split <;> rfl
@[simp] theorem State.judgeLine_fixed (s : State) (c : JournalConfig) (sc : Scan) (a : Answer) :
    (s.judgeLine c sc a).fixed = s.fixed := by
  unfold State.judgeLine
  dsimp only
  repeat' split
  all_goals simp
@[simp] theorem State.judgeLines_fixed (k : Nat) (s : State) :
    (State.judgeLines k s).fixed = s.fixed := by
  induction k generalizing s with
  | zero => rfl
  | succ k ih =>
    unfold State.judgeLines; repeat' split
    all_goals first | rfl | simp [ih]
@[simp] theorem State.dropAnswer_fixed (s : State) (p : Pos) :
    (s.dropAnswer p).fixed = s.fixed := rfl
@[simp] theorem State.positionAnswer_fixed (s : State) (p : Pos) (a : Answer) :
    (s.positionAnswer p a).fixed = s.fixed := by
  unfold State.positionAnswer
  split <;> simp
@[simp] theorem State.examineGroup_fixed (s : State) : (s.examineGroup).fixed = s.fixed := by
  unfold State.examineGroup
  split <;> (try split) <;> simp
@[simp] theorem State.redoGranted_fixed (s : State) (sc : Scan) :
    (s.redoGranted sc).fixed = s.fixed := by
  unfold State.redoGranted
  split <;> simp
@[simp] theorem State.takeAnchor_fixed (s : State) (a : Anchor) :
    (s.takeAnchor a).fixed = s.fixed := rfl
@[simp] theorem State.endFresh_fixed (s : State) : (s.endFresh).fixed = s.fixed := by
  unfold State.endFresh
  split <;> rfl
@[simp] theorem State.endNormal_fixed (s : State) : (s.endNormal).fixed = s.fixed := by
  unfold State.endNormal
  split <;> rfl
@[simp] theorem State.fenceOk_fixed (s : State) : (s.fenceOk).fixed = s.fixed := by
  unfold State.fenceOk
  split <;> simp
@[simp] theorem State.recoveryFence_fixed (s : State) (status : ModStatus) :
    (s.recoveryFence status).fixed = s.fixed := by
  unfold State.recoveryFence
  split <;> (try split) <;> simp
@[simp] theorem State.recoveryRead_fixed (s : State) (ref : TagRef) (a : Answer) :
    (s.recoveryRead ref a).fixed = s.fixed := by
  unfold State.recoveryRead
  split <;> (try split) <;> simp
@[simp] theorem State.settleClaims_fixed (s : State) : (s.settleClaims).fixed = s.fixed := rfl
@[simp] theorem State.markFence_fixed (s : State) (b : LowerBody) :
    (s.markFence b).fixed = s.fixed := by
  unfold State.markFence
  split <;> rfl
@[simp] theorem State.takeTag_fixed (s : State) (tag : Option (Nat × TagInfo)) :
    (s.takeTag tag).fixed = s.fixed := by
  unfold State.takeTag
  split <;> rfl
@[simp] theorem State.passGranted_fixed (s : State) (b : LowerBody) :
    (s.passGranted b).fixed = s.fixed := by
  unfold State.passGranted
  split <;> simp
@[simp] theorem State.journalGranted_fixed (s : State) : (s.journalGranted).fixed = s.fixed := by
  unfold State.journalGranted
  split <;> (try split) <;> simp
@[simp] theorem State.applyGranted_fixed (s : State) : (s.applyGranted).fixed = s.fixed := by
  unfold State.applyGranted
  repeat' split
  all_goals rfl
@[simp] theorem State.ckptGranted_fixed (s : State) : (s.ckptGranted).fixed = s.fixed := rfl
@[simp] theorem State.readGranted_fixed (s : State) (tag : Option (Nat × TagInfo)) :
    (s.readGranted tag).fixed = s.fixed := by
  unfold State.readGranted
  split <;> rfl
@[simp] theorem State.recoveryReadGranted_fixed (s : State) (tag : Option (Nat × TagInfo)) :
    (s.recoveryReadGranted tag).fixed = s.fixed := by
  unfold State.recoveryReadGranted
  split <;> rfl
@[simp] theorem State.recoveryFenceGranted_fixed (s : State) :
    (s.recoveryFenceGranted).fixed = s.fixed := rfl
@[simp] theorem State.recoveryGranted_fixed (s : State) (tag : Option (Nat × TagInfo)) :
    (s.recoveryGranted tag).fixed = s.fixed := by
  unfold State.recoveryGranted
  split <;> (try split) <;> simp
@[simp] theorem State.granted_fixed (s : State) (o : Offer) (src : Source) :
    (s.granted o src).fixed = s.fixed := by
  cases src <;> simp [State.granted]
@[simp] theorem State.grant_fixed (s : State) (src : Source) (o : Offer) :
    (s.grant src o).fixed = s.fixed := by
  exact (State.granted_fixed _ _ _).trans (by simp; rfl)
@[simp] theorem State.arbitrate_fixed (s : State) : (s.arbitrate).fixed = s.fixed := by
  unfold State.arbitrate; try dsimp only
  repeat' split
  all_goals first | (simp; done) | rfl | (simp; rfl)
@[simp] theorem State.trainIfDown_fixed (s : State) (l : Link) :
    (s.trainIfDown l).fixed = s.fixed := by
  unfold State.trainIfDown
  split <;> simp
@[simp] theorem State.trainPorts_fixed (s : State) : (s.trainPorts).fixed = s.fixed := by
  simp [State.trainPorts]
@[simp] theorem State.samplePfw_fixed (s : State) : (s.samplePfw).fixed = s.fixed := by
  unfold State.samplePfw
  split <;> simp
@[simp] theorem State.creditOverrun_fixed (s : State) (r : Request) :
    (s.creditOverrun r).fixed = s.fixed := by
  simp [State.creditOverrun]
@[simp] theorem State.receiveRequest_fixed (s : State) (r : Request) :
    (s.receiveRequest r).fixed = s.fixed := by
  unfold State.receiveRequest
  split
  · rfl
  · simp
@[simp] theorem State.countFence_fixed (s : State) (info : TagInfo) (status : ModStatus) :
    (s.countFence info status).fixed = s.fixed := by
  unfold State.countFence
  split <;> rfl
@[simp] theorem State.handRecordRead_fixed (s : State) (info : TagInfo) (a : Answer) :
    (s.handRecordRead info a).fixed = s.fixed := by
  unfold State.handRecordRead
  split <;> simp
@[simp] theorem State.handGroupFence_fixed (s : State) (info : TagInfo) (status : ModStatus) :
    (s.handGroupFence info status).fixed = s.fixed := by
  unfold State.handGroupFence
  split <;> simp
@[simp] theorem State.handPlainFence_fixed (s : State) (status : ModStatus) :
    (s.handPlainFence status).fixed = s.fixed := by
  unfold State.handPlainFence
  split <;> simp
@[simp] theorem State.handOn_fixed (s : State) (info : TagInfo) (a : Answer) :
    (s.handOn info a).fixed = s.fixed := by
  unfold State.handOn
  split <;> simp
@[simp] theorem State.receiveCompletion_fixed (s : State) (t : Nat) (a : Answer) :
    (s.receiveCompletion t a).fixed = s.fixed := by
  unfold State.receiveCompletion
  dsimp only
  split <;> (try split) <;> simp
@[simp] theorem State.acceptPacket_fixed (s : State) (l : Link) (seq : Seq) :
    (s.acceptPacket l seq).fixed = s.fixed := by
  unfold State.acceptPacket
  dsimp only
  split <;> simp
@[simp] theorem State.consume_fixed (s : State) (l : Link) (bytes : List Byte) :
    (s.consume l bytes).fixed = s.fixed := by
  unfold State.consume
  split <;> (try split) <;> simp
@[simp] theorem State.judgePacket_fixed (s : State) (l : Link) (bytes : List Byte) :
    (s.judgePacket l bytes).fixed = s.fixed := by
  unfold State.judgePacket
  dsimp only
  repeat' split
  all_goals simp
@[simp] theorem onInit_fixed (l : Link) (u : LinkUnit) (s : State) :
    (onInit l u s).fixed = s.fixed := by
  unfold onInit
  split <;> simp
@[simp] theorem onAck_fixed (l : Link) (u : LinkUnit) (s : State) :
    (onAck l u s).fixed = s.fixed := by
  unfold onAck
  split <;> simp
@[simp] theorem onNak_fixed (l : Link) (u : LinkUnit) (s : State) :
    (onNak l u s).fixed = s.fixed := by
  unfold onNak
  split <;> simp
@[simp] theorem onCredit_fixed (l : Link) (u : LinkUnit) (s : State) :
    (onCredit l u s).fixed = s.fixed := by
  unfold onCredit
  split <;> simp
@[simp] theorem State.refreshExpiry_fixed (s : State) : (s.refreshExpiry).fixed = s.fixed := by
  unfold State.refreshExpiry
  split <;> rfl
@[simp] theorem State.holdExpiry_fixed (s : State) : (s.holdExpiry).fixed = s.fixed := by
  unfold State.holdExpiry
  split <;> simp
@[simp] theorem State.budgetTimerExpiry_fixed (s : State) :
    (s.budgetTimerExpiry).fixed = s.fixed := by
  unfold State.budgetTimerExpiry
  split <;> simp
@[simp] theorem State.takeHead_fixed (s : State) (rest : List QueueItem) :
    (s.takeHead rest).fixed = s.fixed := rfl
@[simp] theorem State.dropMalformed_fixed (s : State) (r : Request) :
    (s.dropMalformed r).fixed = s.fixed := rfl
@[simp] theorem State.zeroWrite_fixed (s : State) (n : Num32) (r : Request) :
    (s.zeroWrite n r).fixed = s.fixed := by
  unfold State.zeroWrite
  split <;> simp
@[simp] theorem State.plainWrite_fixed (s : State) (n : Num32) (r : Request) :
    (s.plainWrite n r).fixed = s.fixed := by
  unfold State.plainWrite
  split <;> rfl
@[simp] theorem State.routeWrite_fixed (s : State) (n : Num32) (r : Request) :
    (s.routeWrite n r).fixed = s.fixed := by
  unfold State.routeWrite
  split <;> (try split) <;> simp
@[simp] theorem State.classify_fixed (s : State) (n : Num32) (r : Request) (orphan : Bool) :
    (s.classify n r orphan).fixed = s.fixed := by
  unfold State.classify
  split <;> (try split) <;> simp
@[simp] theorem State.haltedTake_fixed (s : State) (n : Num32) (r : Request) (orphan : Bool) :
    (s.haltedTake n r orphan).fixed = s.fixed := by
  unfold State.haltedTake
  split <;> simp
@[simp] theorem State.takeRequest_fixed (s : State) : (s.takeRequest).fixed = s.fixed := by
  unfold State.takeRequest
  repeat' split
  all_goals simp
@[simp] theorem State.takeMarker_fixed (s : State) : (s.takeMarker).fixed = s.fixed := by
  unfold State.takeMarker; try dsimp only
  repeat' split
  all_goals first | (simp; done) | rfl | (simp; rfl)
@[simp] theorem State.intakeInHoldup_fixed (s : State) : (s.intakeInHoldup).fixed = s.fixed := by
  unfold State.intakeInHoldup; try dsimp only
  repeat' split
  all_goals first | (simp; done) | rfl | (simp; rfl)
@[simp] theorem State.sendCompletion_fixed (s : State) (c : Completion) :
    (s.sendCompletion c).fixed = s.fixed := rfl
@[simp] theorem State.freeFormed_fixed (s : State) (f : Formed) :
    (s.freeFormed f).fixed = s.fixed := by
  unfold State.freeFormed
  split <;> rfl
@[simp] theorem State.takeCompletion_fixed (s : State) : (s.takeCompletion).fixed = s.fixed := by
  unfold State.takeCompletion; try dsimp only
  repeat' split
  all_goals first | (simp; done) | rfl | (simp; rfl)
@[simp] theorem State.sendDueCredit_fixed (s : State) : (s.sendDueCredit).fixed = s.fixed := by
  unfold State.sendDueCredit
  split <;> rfl

end Sys2Proof.Machine
end

