-- ==== Sys2Proof/Laws/Event.lean ====
section
/-! SUPPORT. What an event adds around a command's own effect: nothing at its beginning in a calm state,
and at its end only the standing conditions, by mode. -/

namespace Sys2Proof.Machine

variable {s : State}

/-- Ports that are owed no training are left as they are. -/
theorem State.trainPorts_of_trained (h : s.trained) : s.trainPorts = s := by
  obtain ⟨hu, hl⟩ := h
  have upper : s.trainIfDown .upper = s := if_neg fun c => by simp_all [State.port]
  have lower : s.trainIfDown .lower = s := if_neg fun c => by simp_all [State.port]
  rw [State.trainPorts, upper, lower]

/-- A mode that ignores PFW_N makes no transition. -/
theorem State.pfwTransition_of_ignores (h : s.mode.ignoresPfw) : s.pfwTransition = s := by
  rcases h with h | h | h <;> simp [State.pfwTransition, h]

/-- A calm state begins an event with nothing sent and nothing else changed. -/
theorem State.beginEvent_of_calm (h : s.calm) : s.beginEvent = { s with sent := [] } := by
  have trained : State.trained { s with sent := [] } := h.1
  rw [State.beginEvent, State.trainPorts_of_trained trained, State.samplePfw]
  split
  · next asserted => exact State.pfwTransition_of_ignores (h.2 asserted)
  · rfl

/-- A whole event in a calm state. -/
theorem State.event_of_calm (h : s.calm) (f : State → State) :
    s.event f = .next (f { s with sent := [] }).endEvent := by
  rw [State.event, State.beginEvent_of_calm h]

/-- Outside OPERATING and HOLDUP an event ends with the claims alone examined. -/
theorem State.endEvent_of_idle (ho : s.mode ≠ .operating) (hh : s.mode ≠ .holdup) :
    s.endEvent = s.settleClaims := by
  simp [State.endEvent, State.settleFlushes, State.settleHoldup, ho, hh]

/-- In OPERATING an event ends with the flushes and the claims examined. -/
theorem State.endEvent_of_not_holdup (hh : s.settleFlushes.mode ≠ .holdup) :
    s.endEvent = s.settleFlushes.settleClaims := by
  simp [State.endEvent, State.settleHoldup, hh]

/-- No source has a packet in a mode that permits none, so every claim ends. -/
theorem State.settleClaims_of_none (h : ∀ src : Source, src.permitted s.mode = false) :
    s.settleClaims = { s with claims := .none } := by
  have none : (fun src => (s.offer src).isSome) = fun _ => false := by
    funext src
    simp [State.offer, h src]
  rw [State.settleClaims, none]
  simp [Claims.keep, Claims.none]

/-- SAFE and HALTED: an event ends with no claim held. -/
theorem State.endEvent_of_stopped (h : s.mode = .safe ∨ s.mode = .halted) :
    s.endEvent = { s with claims := .none } := by
  rw [State.endEvent_of_idle (by rcases h with h | h <;> simp [h]) (by rcases h with h | h <;> simp [h])]
  exact State.settleClaims_of_none fun src => by rcases h with h | h <;> simp [h, Source.permitted]

end Sys2Proof.Machine
end

