-- ==== Sys2Proof/Laws/Tables.lean ====
section
/-! SUPPORT. Reading the tables back: what a record, a stream, a read record or a lower tag is after a
named update, which items the sorted views hold, and the fault list after an append. -/

namespace Sys2Proof.Machine

/-! ### Lists -/

/-- Changing an entry that is in use is replacing it. -/
theorem modify_eq_set {α : Type} (l : List (Option α)) (i : Nat) (a : α) (f : α → α)
    (h : l.getD i none = some a) : l.modify i (Option.map f) = l.set i (some (f a)) := by
  induction l generalizing i with
  | nil => cases h
  | cons b l ih =>
    cases i with
    | zero =>
      obtain rfl : b = some a := h
      rfl
    | succ i => exact congrArg (b :: ·) (ih i h)

/-- An entry in use lies inside its table. -/
theorem lt_length_of_getD {α : Type} {l : List (Option α)} {i : Nat} {a : α}
    (h : l.getD i none = some a) : i < l.length := by
  by_contra hi
  rw [List.getD_eq_getElem?_getD, List.getElem?_eq_none (by omega)] at h
  cases h

/-- Reading a table after one entry is replaced. -/
theorem getD_set {α : Type} (l : List α) (i j : Nat) (a d : α) :
    (l.set i a).getD j d = if i = j ∧ j < l.length then a else l.getD j d := by
  simp only [List.getD_eq_getElem?_getD, List.getElem?_set]
  split <;> split <;> (try split) <;> first | rfl | simp_all

/-- The items in use of a table, with their indexes. -/
theorem mem_inUse {α : Type} {table : List (Option α)} {i : Nat} {a : α} :
    (i, a) ∈ inUse table ↔ table[i]? = some (some a) := by
  simp [inUse, List.mem_filterMap, List.mem_zipIdx_iff_getElem?]

/-- Inserting by key keeps the items. -/
theorem mem_insertByKey {α : Type} (key : α → Num32) (a b : α) (l : List α) :
    b ∈ insertByKey key a l ↔ b = a ∨ b ∈ l := by
  induction l with
  | nil => simp [insertByKey]
  | cons c l ih =>
    rw [insertByKey]
    split
    · simp
    · rw [List.mem_cons, ih, List.mem_cons]
      tauto

/-- Sorting by key keeps the items. -/
theorem mem_sortByKey {α : Type} (key : α → Num32) (b : α) (l : List α) :
    b ∈ sortByKey key l ↔ b ∈ l := by
  induction l with
  | nil => rfl
  | cons a l ih => rw [sortByKey, mem_insertByKey, ih, List.mem_cons]

/-! ### Groups -/

/-- Another record than the one changed reads as before; the one changed reads as changed. -/
theorem State.group?_modifyGroup (s : State) (r q : Nat) (f : Group → Group) :
    (s.modifyGroup r f).group? q = if r = q then (s.group? q).map f else s.group? q := by
  simp only [State.group?, State.modifyGroup, List.getD_eq_getElem?_getD, List.getElem?_modify]
  split
  · next h =>
    subst h
    cases s.groups[r]? with
    | none => rfl
    | some o => rfl
  · cases s.groups[q]? <;> rfl

/-- A freed record is free; another reads as before. -/
theorem State.group?_freeGroup (s : State) (r q : Nat) :
    (s.freeGroup r).group? q = if r = q then none else s.group? q := by
  simp only [State.group?, State.freeGroup, getD_set]
  split
  · next h => rw [if_pos h.1]
  · next h =>
    split
    · next e =>
      subst e
      rw [List.getD_eq_getElem?_getD, List.getElem?_eq_none (by omega)]
      rfl
    · rfl

/-- The closed groups are the records in use that have a serial. -/
theorem State.mem_closedGroups {s : State} {r : Nat} {g : Group} :
    (r, g) ∈ s.closedGroups ↔ s.group? r = some g ∧ g.serial.isSome = true := by
  rw [State.closedGroups, mem_sortByKey, List.mem_filter, State.liveGroups, mem_inUse, State.group?,
    List.getD_eq_getElem?_getD]
  cases s.groups[r]? with
  | none => simp
  | some o => simp

/-! ### Streams, read records, lower tags -/

/-- The changed stream reads as changed where the part has it; another reads as before. -/
theorem State.stream_modifyStream (s : State) (i j : Nat) (f : StreamState → StreamState) :
    (s.modifyStream i f).stream j =
      if i = j ∧ j < s.streams.length then f (s.stream j) else s.stream j := by
  simp only [State.stream, State.modifyStream, List.getD_eq_getElem?_getD, List.getElem?_modify]
  by_cases h : j < s.streams.length
  · rw [List.getElem?_eq_getElem h]
    by_cases e : i = j <;> simp [e, h]
  · rw [List.getElem?_eq_none (by omega)]
    simp [h]

/-- The changed read record reads as changed; another reads as before. -/
theorem State.read?_modifyRead (s : State) (i j : Nat) (f : ReadRecord → ReadRecord) :
    (s.modifyRead i f).read? j = if i = j then (s.read? j).map f else s.read? j := by
  simp only [State.read?, State.modifyRead, List.getD_eq_getElem?_getD, List.getElem?_modify]
  split
  · next h =>
    subst h
    cases s.reads[i]? with
    | none => rfl
    | some o => rfl
  · cases s.reads[j]? <;> rfl

/-- The tag put reads as put where the part has it; another reads as before. -/
theorem State.tag_setTag (s : State) (t u : Nat) (v : LowerTag) :
    (s.setTag t v).tag u = if t = u ∧ u < s.tags.length then v else s.tag u := getD_set _ _ _ _ _

/-- A tag after the buffer is replaced: SPENT with no packet left becomes FREE. -/
theorem State.tag_setLowerRetry (s : State) (buffer : List LowerPacket) (t : Nat) :
    (s.setLowerRetry buffer).tag t = releaseTag buffer (s.tag t) t := by
  simp only [State.tag, State.setLowerRetry, List.getD_eq_getElem?_getD, List.getElem?_map,
    List.getElem?_zipIdx]
  cases s.tags[t]? with
  | none => rfl
  | some v => simp

/-! ### The re-send with nothing marked, the fault list -/

/-- A buffer with no packet marked for re-send is left as it is. -/
theorem State.resendGo_of_unmarked (s : State) (done rest : List LowerPacket)
    (h : ∀ p ∈ rest, p.resend = false) : s.resendGo done rest = { s with lowerRetry := done ++ rest } := by
  induction rest generalizing s done with
  | nil => rw [State.resendGo, List.append_nil]
  | cons p rest ih =>
    rw [State.resendGo, if_neg (by simp [h p List.mem_cons_self]),
      ih _ _ fun q hq => h q (List.mem_cons_of_mem p hq), List.append_assoc, List.singleton_append]

/-- The re-send of a port with nothing marked changes nothing. -/
theorem State.resendOn_of_unmarked (s : State) (l : Link) (h : ∀ p ∈ s.lowerRetry, p.resend = false) :
    s.resendOn l = s := by
  cases l with
  | upper => rfl
  | lower =>
    rw [State.resendOn, State.resend]
    split
    · rw [State.resendGo_of_unmarked s [] _ h, List.nil_append]
    · rfl

/-- An append leaves at least one record. -/
theorem pushFault_ne_nil (faults : List FaultRecord) (r : FaultRecord) : pushFault faults r ≠ [] := by
  simp [pushFault]

/-- An append keeps the list within 32 records (R204). -/
theorem pushFault_length_le (faults : List FaultRecord) (r : FaultRecord)
    (h : faults.length ≤ Config.faultRecords) :
    (pushFault faults r).length ≤ Config.faultRecords := by
  simp only [pushFault, List.length_append, List.length_singleton]
  split
  · omega
  · simp only [List.length_drop, Config.faultRecords] at *
    omega

end Sys2Proof.Machine
end

