-- ==== Sys2Proof/Laws/Answers.lean ====
section
/-! SUPPORT. The module's answer on the lower link: what receiving it leaves to its tag's owner
(R158, R166, R169, R184). -/

namespace Sys2Proof.Machine

/-- An answer that reaches its owner: the packet is counted, its tag ends its wait, the retry buffer is
pruned, and the owner has the answer; nothing else has changed. -/
theorem State.Answered.exec {s : State} {bytes : List Byte} {info : TagInfo}
    (h : s.Answered bytes info) (notSafe : s.mode ≠ .safe) (notHalted : s.mode ≠ .halted) :
    ∃ (sent : List Sent) (lower : Port) (retry : List LowerPacket) (tags : List LowerTag),
      Machine.exec (.transactionPacket .lower bytes) s =
        .next (State.endEvent (State.handOn
          { s with sent := sent, lower := lower, lowerRetry := retry, tags := tags } info
          (parseAnswer bytes))) ∧
      ∀ u : State, u.tags = tags → s.TagEnded u (completionTag bytes) info := by
  obtain ⟨calm, up, good, seq, completion, tag, attached⟩ := h
  have received : Machine.exec (.transactionPacket .lower bytes) s =
      .next (State.endEvent (State.receiveCompletion
        (State.acceptPacket { s with sent := [] } .lower (frameSeq bytes)) (completionTag bytes)
        (parseAnswer bytes))) := by
    have expected : (frameSeq bytes - s.lower.expRx).toNat = 0 := by
      rw [seq, BitVec.sub_self]
      rfl
    simp only [Machine.exec, execTransactionPacket, State.event_of_calm calm, State.judgePacket,
      State.port, up, good, State.consume, completion, expected, if_true]
  have accepted : ∃ sent lower, State.acceptPacket { s with sent := [] } .lower (frameSeq bytes) =
      { s with sent := sent, lower := lower } := by
    simp only [State.acceptPacket]
    split <;> exact ⟨_, _, rfl⟩
  obtain ⟨sent, lower, accepted⟩ := accepted
  have waiting : State.tag { s with sent := sent, lower := lower } (completionTag bytes) =
      .outstanding info := tag
  rw [accepted, State.receiveCompletion, waiting] at received
  simp only [State.setTag, State.pruneLower, State.setLowerRetry, attached, notSafe, notHalted,
    Bool.false_eq_true, or_self, if_false] at received
  refine ⟨sent, lower, _, _, received, fun u hu => ?_⟩
  have inTable : completionTag bytes < s.tags.length := by
    by_contra outside
    rw [State.tag, List.getD_eq_getElem?_getD, List.getElem?_eq_none (by omega)] at tag
    cases tag
  have answered : ∀ p : LowerPacket, p.body.tag? = some (completionTag bytes) →
      State.answerOwed { s with
        sent := sent, lower := lower
        tags := s.tags.set (completionTag bytes) (.spent info) } p.body = false := by
    intro p hp
    simp [State.answerOwed, hp, State.tag, List.getD_eq_getElem?_getD, inTable,
      LowerTag.isOutstanding]
  simp only [State.TagEnded, State.tag, hu, List.getD_eq_getElem?_getD, List.getElem?_map,
    List.getElem?_zipIdx]
  simp [inTable, releaseTag, List.any_filter]
  congr 1
  apply propext
  constructor
  · rintro ⟨p, kept, owed | owed, same⟩
    · exact ⟨p, kept, owed, same⟩
    · rw [answered p same] at owed
      cases owed
  · rintro ⟨p, kept, owed, same⟩
    exact ⟨p, kept, .inl owed, same⟩

end Sys2Proof.Machine
end

