-- ==== Sys2Proof/Laws/Arbiter.lean ====
section
/-! SUPPORT. What an arbiter event can do: which sources the examination passes over, the grant it comes
to, and what every grant leaves (R186, R187, R189). -/

namespace Sys2Proof.Machine

variable {s : State}

/-! ### The examination -/

/-- The arbiter may grant: UP, no packet marked for re-send, room in the buffer (R186). -/
theorem State.mayGrant_of (up : s.lower.state = .up) (unmarked : ∀ p ∈ s.lowerRetry, p.resend = false)
    (room : s.lowerRetry.length < 64) : s.mayGrant = true := by
  simp only [State.mayGrant, State.resendPending, up, Config.lowerRetryPackets, room]
  simpa using unmarked

/-- `Claims.bars` is a claim held against the source. -/
theorem Claims.bars_iff (c : Claims) (src : Source) (a : Amount) :
    c.bars src a = true ↔ c.HeldAgainst src a := by
  simp only [Claims.bars, Claims.HeldAgainst, heldByOther, Bool.or_eq_true, Bool.and_eq_true,
    Option.any_eq_true, bne_iff_ne, decide_eq_true_eq, or_assoc]
  exact or_congr and_comm (or_congr and_comm and_comm)

/-- No claim held bars nothing. -/
theorem Claims.not_heldAgainst_none (src : Source) (a : Amount) : ¬Claims.none.HeldAgainst src a := by
  simp [Claims.HeldAgainst, Claims.none]

/-- The claims a skipped source takes, kind by kind (R187). -/
theorem Claims.take_eq (c : Claims) (src : Source) (need available : Amount) :
    c.take src need available =
      { wh := if c.wh = .none ∧ available.wh < need.wh then some src else c.wh
        wd := if c.wd = .none ∧ available.wd < need.wd then some src else c.wd
        rd := if c.rd = .none ∧ available.rd < need.rd then some src else c.rd } := by
  have kind : ∀ (claim : Option Source) (a b : Nat),
      takeClaim claim src (decide (a < b)) = if claim = .none ∧ a < b then some src else claim := by
    intro claim a b
    cases claim <;> by_cases h : a < b <;> simp [takeClaim, h]
  simp only [Claims.take, kind]

/-- Sources with no packet, or whose packet fits and is barred, are passed over with no other effect. -/
theorem State.examine_passes (c : Claims) (before rest : List Source)
    (h : ∀ b ∈ before, s.offer b = none ∨ ∃ x, s.offer b = some x ∧
      x.body.charge.fits s.lowerAvailable = true ∧ c.HeldAgainst b x.body.charge) :
    s.examine c (before ++ rest) = s.examine c rest := by
  induction before with
  | nil => rfl
  | cons b before ih =>
    have ih := ih fun x hx => h x (List.mem_cons_of_mem _ hx)
    rcases h b List.mem_cons_self with idle | ⟨x, offered, fits, held⟩
    · rw [List.cons_append, State.examine, idle]
      exact ih
    · rw [List.cons_append, State.examine, offered]
      simp only [fits, if_true, (Claims.bars_iff _ _ _).2 held]
      exact ih

/-- The examination does not read what was sent. -/
theorem State.examine_sent (sent : List Sent) (c : Claims) (l : List Source) :
    State.examine { s with sent := sent } c l = s.examine c l := by
  induction l generalizing c with
  | nil => rfl
  | cons a l ih =>
    simp only [State.examine, ih]
    rfl

/-- An arbiter event that may grant, by what its examination finds. -/
theorem exec_arbiterGrant (calm : s.calm) (may : s.mayGrant = true) :
    exec .arbiterGrant s = .next (State.endEvent
      (let found := s.examine s.claims (Source.circle.rotateLeft s.robin)
      match found.2 with
      | none => { s with sent := [], claims := found.1 }
      | some (src, o) => State.grant { s with sent := [], claims := found.1 } src o)) := by
  have may' : State.mayGrant { s with sent := [] } = true := may
  simp only [exec, execArbiterGrant, State.event_of_calm calm, State.arbitrate]
  rw [may', if_pos rfl]
  have same : State.examine { s with sent := [] } (State.claims { s with sent := [] })
      (Source.circle.rotateLeft (State.robin { s with sent := [] })) =
        s.examine s.claims (Source.circle.rotateLeft s.robin) := State.examine_sent _ _ _
  rcases found : s.examine s.claims (Source.circle.rotateLeft s.robin) with ⟨c, _ | ⟨src, o⟩⟩ <;>
    simp only [same, found]

/-- The first source that is neither without a packet nor barred, when its charge fits, is granted. -/
theorem exec_arbiterGrant_grants (calm : s.calm) (may : s.mayGrant = true)
    {before after : List Source} {src : Source} {o : Offer}
    (order : Source.circle.rotateLeft s.robin = before ++ src :: after)
    (passed : ∀ b ∈ before, s.offer b = none ∨ ∃ x, s.offer b = some x ∧
      x.body.charge.fits s.lowerAvailable = true ∧ s.claims.HeldAgainst b x.body.charge)
    (offered : s.offer src = some o) (fits : o.body.charge.fits s.lowerAvailable = true)
    (free : ¬s.claims.HeldAgainst src o.body.charge) :
    exec .arbiterGrant s = .next (State.endEvent (State.grant { s with sent := [] } src o)) := by
  have notBarred : s.claims.bars src o.body.charge = false := by
    rw [← Bool.not_eq_true, Claims.bars_iff]
    exact free
  rw [exec_arbiterGrant calm may, order, State.examine_passes _ _ _ passed, State.examine, offered]
  simp only [fits, if_true, notBarred, Bool.false_eq_true, if_false]

/-- With no claim held, the source examined first is granted when its charge fits. -/
theorem State.GrantsFrom.grants {n : Nat} (h : s.GrantsFrom n) {src : Source} {rest : List Source}
    (order : Source.circle.rotateLeft n = src :: rest) {o : Offer} (offered : s.offer src = some o)
    (fits : o.body.charge.fits s.lowerAvailable = true) :
    exec .arbiterGrant s = .next (State.endEvent (State.grant { s with sent := [] } src o)) := by
  obtain ⟨calm, up, unmarked, room, unclaimed, robin⟩ := h
  refine exec_arbiterGrant_grants (before := []) calm (State.mayGrant_of up unmarked room)
    (by rw [robin, order]; rfl) (by simp) offered fits ?_
  rw [unclaimed]
  exact Claims.not_heldAgainst_none _ _

/-! ### The grant -/

/-- What a grant does at its owner touches neither the packets sent, the arbiter nor the tags. -/
theorem State.granted_frame (s : State) (o : Offer) (src : Source) :
    (s.granted o src).sent = s.sent ∧ (s.granted o src).robin = s.robin ∧
      (s.granted o src).claims = s.claims ∧ (s.granted o src).tags = s.tags := by
  cases src <;>
    simp only [State.granted, State.passGranted, State.journalGranted, State.applyGranted,
      State.ckptGranted, State.readGranted, State.recoveryGranted, State.recoveryReadGranted,
      State.recoveryFenceGranted, State.redoGranted, State.examineGroup, State.endScan,
      State.withFlight, State.withCkpt, State.withRecovery, State.withJournal, State.withScan,
      State.modifyGroup, State.modifyRead, State.mapEntries, State.countPassSend,
      State.freeEntryOnce, State.returnCredits]
  all_goals (repeat' split) <;> (try simp)

/-- Every grant sends its packet under the next sequence, moves the position past its source and ends the
source's claims (R186, R187). -/
theorem State.grant_frame (s : State) (src : Source) (o : Offer) :
    (s.grant src o).sent = s.sent ++ [.request s.lower.nextTx o.body] ∧
      (s.grant src o).robin = (src.position + 1) % 7 ∧
      (s.grant src o).claims = s.claims.keep fun h => h != src := by
  simp only [State.grant]
  obtain ⟨sent, robin, claims, _⟩ := State.granted_frame (State.sendLower (State.markFence
    (State.takeTag
      { s with robin := (src.position + 1) % 7, claims := s.claims.keep fun h => h != src }
      o.tag) o.body) o.body) o src
  rw [sent, robin, claims]
  simp only [State.sendLower, State.chargeLower, State.emit]
  cases o.tag <;> cases o.body <;> simp [State.takeTag, State.markFence, State.markGranted, State.setTag]

/-- A granted write: what the grant leaves before its owner moves on. -/
theorem State.GrantsFrom.grants_write {n : Nat} (h : s.GrantsFrom n) {src : Source}
    {rest : List Source} (order : Source.circle.rotateLeft n = src :: rest) {kind : WriteKind}
    {addr : Addr} {data : List Byte} {poison : Bool}
    (offered : s.offer src = some (offerWrite kind addr data poison))
    (fits : Amount.fits { wh := 1, wd := unitsOf data.length, rd := 0 } s.lowerAvailable = true) :
    ∃ v : State,
      v = { s with
        sent := [.request s.lower.nextTx (.write kind addr data poison)]
        robin := v.robin, claims := v.claims, lower := v.lower, lowerCredits := v.lowerCredits
        lowerRetry := v.lowerRetry } ∧
      exec .arbiterGrant s =
        .next (State.endEvent (v.granted (offerWrite kind addr data poison) src)) :=
  ⟨_, rfl, h.grants order offered fits⟩

/-- A granted fence: its tag is OUTSTANDING with the pass-send count, which the granted mark takes. -/
theorem State.GrantsFrom.grants_fence {n : Nat} (h : s.GrantsFrom n) {src : Source}
    {rest : List Source} (order : Source.circle.rotateLeft n = src :: rest) {t : Nat} {owner : Owner}
    {purpose : Purpose} {ref : TagRef} (offered : s.offer src = s.offerFence owner purpose ref)
    (tag : s.freeTag = some t)
    (fits : Amount.fits { wh := 0, wd := 0, rd := 1 } s.lowerAvailable = true) :
    ∃ (v : State) (o : Offer),
      v = { s with
        sent := [.request s.lower.nextTx (.fence t)], tags := v.tags, robin := v.robin
        claims := v.claims, lower := v.lower, lowerCredits := v.lowerCredits
        lowerRetry := v.lowerRetry, marks := { s.marks with granted := s.marks.passSend } } ∧
      s.FenceGranted v t owner purpose ref ∧ o.body = .fence t ∧
      exec .arbiterGrant s = .next (State.endEvent (v.granted o src)) := by
  have offered' : s.offer src = some
      { body := .fence t
        tag := some (t, { owner := owner, purpose := purpose, ref := ref
                          passCount := some s.marks.passSend, detached := false }) } := by
    rw [offered, State.offerFence, tag]
    rfl
  have inTable : t < s.tags.length := (List.findIdx?_eq_some_iff_getElem.1 tag).1
  refine ⟨_, _, rfl, ⟨rfl, ?_, rfl⟩, rfl, h.grants order offered' fits⟩
  simp [State.markFence, State.markGranted, State.takeTag, State.sendLower, State.chargeLower,
    State.emit, State.tag, State.setTag, List.getD_eq_getElem?_getD, inTable]

end Sys2Proof.Machine
end

