-- ==== Sys2Proof/Laws/Bytes.lean ====
section
/-! SUPPORT. Little-endian fields and checks: lengths, a field written and read back, the size of a
check, and the sum a pending entry's check is. -/

namespace Sys2Proof.Machine

/-- A field of `k` bytes has `k` bytes. -/
@[simp] theorem length_leBytes (k n : Nat) : (leBytes k n).length = k := by
  induction k generalizing n with
  | zero => rfl
  | succ k ih => rw [leBytes, List.length_cons, ih]

/-- A field read back is the number modulo its range (R207). -/
theorem leNat_leBytes (k n : Nat) : leNat (leBytes k n) = n % 256 ^ k := by
  induction k generalizing n with
  | zero => simp [leBytes, leNat, Nat.mod_one]
  | succ k ih =>
    rw [leBytes, leNat, ih, toByte, BitVec.toNat_ofNat, show (2 : Nat) ^ 8 = 256 from rfl, pow_succ',
      Nat.mod_mul]

/-- A run of zero bytes has its length. -/
@[simp] theorem length_zeros (n : Nat) : (zeros n).length = n := List.length_replicate

/-- One bit keeps the CRC-32 register within 32 bits. -/
theorem crc32Bit_lt {c : Nat} (h : c < 2 ^ 32) : crc32Bit c < 2 ^ 32 := by
  unfold crc32Bit
  split
  · exact Nat.xor_lt_two_pow (by omega) (by norm_num)
  · omega

/-- One byte keeps the CRC-32 register within 32 bits. -/
theorem crc32Byte_lt {c : Nat} (b : Byte) (h : c < 2 ^ 32) : crc32Byte c b < 2 ^ 32 := by
  have start : c ^^^ b.toNat < 2 ^ 32 := Nat.xor_lt_two_pow h (by have := b.isLt; omega)
  exact crc32Bit_lt (crc32Bit_lt (crc32Bit_lt (crc32Bit_lt (crc32Bit_lt (crc32Bit_lt
    (crc32Bit_lt (crc32Bit_lt start)))))))

/-- A CRC-32 is a 32-bit number. -/
theorem crc32_lt (bytes : List Byte) : crc32 bytes < 2 ^ 32 := by
  have fold : ∀ (l : List Byte) (c : Nat), c < 2 ^ 32 → l.foldl crc32Byte c < 2 ^ 32 := by
    intro l
    induction l with
    | nil => exact fun _ h => h
    | cons b l ih => exact fun c h => ih _ (crc32Byte_lt b h)
  exact Nat.xor_lt_two_pow (fold bytes _ (by norm_num)) (by norm_num)

/-- One bit keeps the CRC-16 register within 16 bits. -/
theorem crc16Bit_lt (c : Nat) : crc16Bit c < 2 ^ 16 := by
  unfold crc16Bit
  split
  · exact Nat.xor_lt_two_pow (by omega) (by norm_num)
  · omega

/-- A CRC-16 is a 16-bit number. -/
theorem crc16_lt (bytes : List Byte) : crc16 bytes < 2 ^ 16 := by
  have fold : ∀ (l : List Byte) (c : Nat), c < 2 ^ 16 → l.foldl crc16Byte c < 2 ^ 16 := by
    intro l
    induction l with
    | nil => exact fun _ h => h
    | cons b l ih => exact fun c _ => ih _ (crc16Bit_lt _)
  exact fold bytes _ (by norm_num)

/-- A run of bytes with its own CRC-32 behind it is good (R208). -/
theorem crc32Good_withCrc32 (bytes : List Byte) : crc32Good (withCrc32 bytes) = true := by
  have field : fieldAt (bytes ++ leBytes 4 (crc32 bytes)) bytes.length 4 = crc32 bytes := by
    rw [fieldAt, slice, List.drop_left, List.take_of_length_le (by simp), leNat_leBytes]
    exact Nat.mod_eq_of_lt (crc32_lt bytes)
  simp [crc32Good, withCrc32, field]

/-- A run of bytes with its own CRC-16 behind it is good (R208). -/
theorem crc16Good_withCrc16 (bytes : List Byte) : crc16Good (withCrc16 bytes) = true := by
  have field : fieldAt (bytes ++ leBytes 2 (crc16 bytes)) bytes.length 2 = crc16 bytes := by
    rw [fieldAt, slice, List.drop_left, List.take_of_length_le (by simp), leNat_leBytes]
    exact Nat.mod_eq_of_lt (crc16_lt bytes)
  simp [crc16Good, withCrc16, field]

/-- A journal line has 64 bytes when its fields fit (R208). -/
theorem length_recordLine (fields : List Byte) (h : fields.length ≤ 60) :
    (recordLine fields).length = 64 := by
  simp [recordLine, withCrc32]
  omega

/-- A pending entry's check is the sum of its bytes modulo 256 (R200). -/
theorem sumCheck_eq (bytes : List Byte) :
    sumCheck bytes = BitVec.ofNat 8 (bytes.map BitVec.toNat).sum := by
  have fold : ∀ (l : List Byte) (a : Byte),
      l.foldl (· + ·) a = a + BitVec.ofNat 8 (l.map BitVec.toNat).sum := by
    intro l
    induction l with
    | nil => intro a; simp
    | cons b l ih => intro a; simp [ih, BitVec.ofNat_add, BitVec.add_assoc]
  simp [sumCheck, fold]

end Sys2Proof.Machine
end

