-- ==== Sys2Proof/Laws/Purge.lean ====
section
/-! SUPPORT. Credits that come back, and what the discard of the intake queue does in HOLDUP (R18 to R20,
R177, R178). -/

namespace Sys2Proof.Machine

theorem Amount.add_zero (a : Amount) : a.add .zero = a := rfl

theorem Amount.zero_add (a : Amount) : Amount.zero.add a = a := by
  simp [Amount.add, Amount.zero]

theorem Amount.add_assoc (a b c : Amount) : (a.add b).add c = a.add (b.add c) := by
  simp [Amount.add, Nat.add_assoc]

/-- Two returns, one after the other, are the return of their sum (R177, R178). -/
theorem UpperCredits.giveBack_add (c : UpperCredits) (advertises : Bool) (a b : Amount) :
    (c.giveBack advertises a).giveBack advertises b = c.giveBack advertises (a.add b) := by
  by_cases ha : a = .zero
  · rw [ha, Amount.zero_add]
    rfl
  · by_cases hb : b = .zero
    · rw [hb, Amount.add_zero]
      simp [UpperCredits.giveBack]
    · have hab : a.add b ≠ .zero := by
        intro h
        apply ha
        simp only [Amount.add, Amount.zero, Amount.mk.injEq] at h
        cases a
        simp_all [Amount.zero]
      have some : ∀ (c : UpperCredits) (x : Amount), x ≠ .zero → c.giveBack advertises x =
          if advertises then { c with pool := c.pool.add x }.advertise
          else { c with pool := c.pool.add x } := by
        intro c x hx
        simp [UpperCredits.giveBack, hx]
      rw [some _ _ hb, some _ _ ha, some _ _ hab]
      cases advertises
      · simp [Amount.add_assoc]
      · simp only [if_true, UpperCredits.advertise, Limits.raise, Amount.add, Amount.zero,
          UpperCredits.mk.injEq, Limits.mk.injEq, Nat.zero_add, BitVec.ofNat_add, BitVec.add_assoc,
          and_self]

/-- Credits that come back where no limit is advertised go to the return pools (R177, R178). -/
theorem State.returnCredits_eq (s : State) (a : Amount) (h : s.mode.advertises = false) :
    s.returnCredits a = { s with credits := { s.credits with pool := s.credits.pool.add a } } := by
  simp only [State.returnCredits, UpperCredits.giveBack, h]
  split
  · rename_i ha
    rw [beq_iff_eq.mp ha]
    rfl
  · rfl

/-- With no limit advertised, the discard of a queue returns every charge to the pools and answers its
reads and flushes; it changes nothing else. -/
theorem State.purgeItems_eq (s : State) (items : List QueueItem) (h : s.mode.advertises = false) :
    s.purgeItems items =
      { s with
        formed := s.formed ++ if s.upper.state = .up then failedAnswers items else []
        credits := { s.credits with pool := s.credits.pool.add (queueCharge items) } } := by
  induction items generalizing s with
  | nil => simp [State.purgeItems, failedAnswers, queueCharge, Amount.add_zero]
  | cons item rest ih =>
    unfold State.purgeItems
    cases item with
    | request r =>
      by_cases hc : s.upper.state = .up ∧ r.kind = .read ∧ QueueItem.linkDownMarker ∉ rest
      · obtain ⟨hu, hk, hm⟩ := hc
        rw [ih _ (by simp [State.purgeItem, State.failDirect, hk, hu, hm, State.returnCredits, h])]
        simp [State.purgeItem, State.failDirect, State.returnCredits_eq s r.charge h, hk, hu, hm,
          failedAnswers, queueCharge, QueueItem.charge, Amount.add_assoc]
      · have hp : s.purgeItem (rest.contains .linkDownMarker) (.request r) =
            s.returnCredits r.charge := by
          simp only [State.purgeItem]
          split
          · rename_i hk
            simp only [State.failDirect]
            rw [if_neg]
            intro ⟨hu, hm⟩
            exact hc ⟨hu, hk, by simpa using hm⟩
          · rfl
          · rfl
        rw [hp, ih (s.returnCredits r.charge) h, State.returnCredits_eq s r.charge h]
        have hf : (if s.upper.state = .up then failedAnswers (.request r :: rest) else []) =
            if s.upper.state = .up then failedAnswers rest else [] := by
          by_cases hu : s.upper.state = .up
          · have : ¬(r.kind = .read ∧ QueueItem.linkDownMarker ∉ rest) := fun x => hc ⟨hu, x⟩
            simp only [failedAnswers, if_neg this, List.nil_append]
          · simp only [if_neg hu]
        rw [hf]
        simp only [queueCharge, QueueItem.charge, Amount.add_assoc]
    | linkDownMarker =>
      simp only [State.purgeItem]
      rw [ih s h]
      simp only [failedAnswers, queueCharge, QueueItem.charge, Amount.zero_add]
    | holdupMarker =>
      simp only [State.purgeItem]
      rw [ih s h]
      simp only [failedAnswers, queueCharge, QueueItem.charge, Amount.zero_add]

/-- What is left of the queue at the end of HOLDUP is discarded. -/
theorem State.purgeQueue_eq (s : State) (h : s.mode.advertises = false) :
    s.purgeQueue = s.queueDiscarded := by
  simp only [State.purgeQueue, State.purgeItems_eq s s.queue h, State.queueDiscarded]

/-- With an empty queue the end of HOLDUP is the plain entry into SAFE. -/
theorem State.leaveHoldup_of_empty (s : State) (h : s.queue = []) : s.leaveHoldup = s.enterSafe := by
  simp [State.leaveHoldup, State.purgeQueue, h, State.purgeItems]
  cases s; simp_all

end Sys2Proof.Machine
end

