-- ==== Sys2Proof/Laws/Discards.lean ====
section
/-! SUPPORT. What the discard of every OPEN group does (R37, R40, R41): its records, the freed members,
the returned credits, the streams and the group records. -/

namespace Sys2Proof.Machine

/-! ### Lists -/

/-- Two removals, one after the other, are one. -/
theorem filter_not_or {α : Type} (p q : α → Bool) (l : List α) :
    (l.filter fun a => !p a).filter (fun a => !q a) = l.filter fun a => !(p a || q a) := by
  rw [List.filter_filter]
  congr 1
  funext a
  cases p a <;> cases q a <;> rfl

/-- What two removals take out counts as what one takes out. -/
theorem filter_or_sum {α : Type} (p q : α → Bool) (f : α → Nat) (l : List α) :
    ((l.filter fun a => p a || q a).map f).sum =
      ((l.filter p).map f).sum + (((l.filter fun a => !p a).filter q).map f).sum := by
  induction l with
  | nil => rfl
  | cons a l ih =>
    cases hp : p a <;> cases hq : q a <;> simp [hp, hq] at ih ⊢ <;> omega

/-- The number of items two removals take out. -/
theorem filter_or_length {α : Type} (p q : α → Bool) (l : List α) :
    (l.filter fun a => p a || q a).length =
      (l.filter p).length + ((l.filter fun a => !p a).filter q).length := by
  simpa using filter_or_sum p q (fun _ => 1) l

/-! ### One discard after others -/

/-- The state in which a record of each of these groups stands, in order. -/
def listed (s : State) (mode : Mode) (cause : Cause) (ps : List (Nat × Nat × Group)) : State :=
  ps.foldl (fun x p =>
    x.recorded { x.record cause mode with stream := some p.1, count := some p.2.2.count }) s

/-- The records depend on the fault list and its counter alone. -/
theorem listed_congr {s v : State} (mode : Mode) (cause : Cause) (ps : List (Nat × Nat × Group))
    (hf : v.faults = s.faults) (hq : v.faultSeq = s.faultSeq) (ha : v.alert = s.alert) :
    (listed v mode cause ps).faults = (listed s mode cause ps).faults ∧
      (listed v mode cause ps).faultSeq = (listed s mode cause ps).faultSeq ∧
      (listed v mode cause ps).alert = (listed s mode cause ps).alert := by
  induction ps generalizing s v with
  | nil => exact ⟨hf, hq, ha⟩
  | cons p ps ih =>
    refine ih ?_ ?_ rfl
    · simp only [State.recorded, State.record, hf, hq]
    · simp only [State.recorded, hq]

/-- The entry is a member of one of these groups. -/
def memberOf (ps : List (Nat × Nat × Group)) (e : Entry) : Bool := ps.any fun p => e.inRecord p.2.1

/-- The groups of `ps` have been discarded out of `s`, and nothing else. -/
structure Discarded (s v : State) (mode : Mode) (cause : Cause) (ps : List (Nat × Nat × Group)) :
    Prop where
  faults : v.faults = (listed s mode cause ps).faults
  faultSeq : v.faultSeq = (listed s mode cause ps).faultSeq
  alert : v.alert = (listed s mode cause ps).alert
  staging : v.staging =
    { entries := s.staging.entries.filter fun e => !memberOf ps e
      freeEntries := s.staging.freeEntries + (s.staging.entries.filter (memberOf ps)).length
      freeUnits := s.staging.freeUnits + totalUnits (s.staging.entries.filter (memberOf ps)) }
  credits : v.credits = s.credits.giveBack s.mode.advertises
    { wh := (s.staging.entries.filter (memberOf ps)).length
      wd := totalUnits (s.staging.entries.filter (memberOf ps)), rd := 0 }
  opened : ∀ p ∈ ps, v.group? p.2.1 = none ∧ v.stream p.1 =
    { group := none, discards := min 255 ((s.stream p.1).discards + 1), lastCause := some cause }
  streams : ∀ i, (∀ p ∈ ps, p.1 ≠ i) → v.stream i = s.stream i
  groups : ∀ r, (∀ p ∈ ps, p.2.1 ≠ r) → v.group? r = s.group? r
  sizes : v.streams.length = s.streams.length
  frame : v =
    { s with
      faults := v.faults, faultSeq := v.faultSeq, alert := v.alert, staging := v.staging
      credits := v.credits, streams := v.streams, groups := v.groups }

/-- Nothing discarded. -/
theorem Discarded.nil (s : State) (mode : Mode) (cause : Cause) : Discarded s s mode cause [] := by
  have none : s.staging.entries.filter (memberOf []) = [] := by simp [memberOf]
  constructor <;> try rfl
  · rw [none]
    simp [memberOf, totalUnits]
  · rw [none]
    rfl
  · simp
  · simp
  · simp

/-- One more group discarded. -/
theorem Discarded.snoc {s v : State} {mode : Mode} {cause : Cause} {ps : List (Nat × Nat × Group)}
    (h : Discarded s v mode cause ps) (i r : Nat) (g : Group) (hi : i < s.streams.length)
    (hs : g.stream = i) (hg : s.group? r = some g) (newStream : ∀ p ∈ ps, p.1 ≠ i)
    (newRecord : ∀ p ∈ ps, p.2.1 ≠ r) :
    Discarded s (v.discard mode cause r) mode cause (ps ++ [(i, r, g)]) := by
  have same : v.group? r = some g := (h.groups r newRecord).trans hg
  have mode' : v.mode = s.mode := by
    rw [h.frame]
  have member : memberOf (ps ++ [(i, r, g)]) = fun e => memberOf ps e || e.inRecord r := by
    funext e
    simp [memberOf]
  have out : v.staging.entries.filter (Entry.inRecord r) =
      (s.staging.entries.filter fun e => !memberOf ps e).filter (Entry.inRecord r) := by
    rw [h.staging]
  have wholeLength : (s.staging.entries.filter (memberOf (ps ++ [(i, r, g)]))).length =
      (s.staging.entries.filter (memberOf ps)).length +
        (v.staging.entries.filter (Entry.inRecord r)).length := by
    rw [member, filter_or_length, out]
  have wholeUnits : totalUnits (s.staging.entries.filter (memberOf (ps ++ [(i, r, g)]))) =
      totalUnits (s.staging.entries.filter (memberOf ps)) +
        totalUnits (v.staging.entries.filter (Entry.inRecord r)) := by
    rw [member, totalUnits, filter_or_sum, out]
    rfl
  have recorded : listed s mode cause (ps ++ [(i, r, g)]) =
      (listed s mode cause ps).recorded { (listed s mode cause ps).record cause mode with
        stream := some i, count := some g.count } := by
    simp [listed]
  have discarded : v.discard mode cause r =
      { v with
        faults := pushFault v.faults
          { v.record cause mode with stream := some i, count := some g.count }
        faultSeq := v.faultSeq + 1#16
        alert := true
        staging :=
          { entries := v.staging.entries.filter fun e => !e.inRecord r
            freeEntries := v.staging.freeEntries + (v.staging.entries.filter (Entry.inRecord r)).length
            freeUnits := v.staging.freeUnits +
              totalUnits (v.staging.entries.filter (Entry.inRecord r)) }
        credits := v.credits.giveBack v.mode.advertises
          { wh := (v.staging.entries.filter (Entry.inRecord r)).length
            wd := totalUnits (v.staging.entries.filter (Entry.inRecord r)), rd := 0 }
        streams := v.streams.modify i fun st =>
          StreamState.countDiscard { st with group := none } cause
        groups := v.groups.set r none } := by
    rw [State.discard, same]
    simp only [State.freeGroup, State.appendFaultIn, State.modifyStream, State.freeEntriesBy,
      State.returnCredits, hs, State.record, List.modify_modify_eq]
    rfl
  constructor
  · rw [discarded, recorded]
    simp only [State.recorded, State.record, h.faults, h.faultSeq]
  · rw [discarded, recorded]
    simp only [State.recorded, h.faultSeq]
  · rw [discarded, recorded]
    rfl
  · rw [discarded]
    simp only
    rw [wholeLength, wholeUnits, member]
    rw [h.staging]
    simp only [filter_not_or, Nat.add_assoc]
  · rw [discarded]
    simp only
    rw [mode', h.credits, UpperCredits.giveBack_add, wholeLength, wholeUnits]
    rfl
  · intro p hp
    rcases List.mem_append.1 hp with hp | hp
    · obtain ⟨hf, hst⟩ := h.opened p hp
      rw [discarded]
      constructor
      · show (v.groups.set r none).getD p.2.1 none = none
        rw [getD_set]
        split
        · rfl
        · exact hf
      · show (v.streams.modify i _).getD p.1 .idle = _
        rw [← hst]
        simp only [List.getD_eq_getElem?_getD, List.getElem?_modify, State.stream,
          Ne.symm (newStream p hp), if_false]
        simp
    · simp only [List.mem_singleton] at hp
      subst hp
      rw [discarded]
      constructor
      · show (v.groups.set r none).getD r none = none
        rw [getD_set]
        split
        · rfl
        · next hr =>
          by_contra hn
          obtain ⟨a, ha⟩ := Option.ne_none_iff_exists'.1 hn
          exact hr ⟨rfl, lt_length_of_getD ha⟩
      · have hst := h.streams i newStream
        have hi' : i < v.streams.length := by rw [h.sizes]; exact hi
        show (v.streams.modify i _).getD i .idle = _
        rw [← hst]
        simp [State.stream, hi', StreamState.countDiscard, Config.discardMax]
  · intro j hj
    have hij : i ≠ j := hj (i, r, g) (by simp)
    rw [discarded, ← h.streams j fun p hp => hj p (List.mem_append_left _ hp)]
    show (v.streams.modify i _).getD j .idle = _
    simp [State.stream, List.getElem?_modify, hij]
  · intro q hq
    have hrq : r ≠ q := hq (i, r, g) (by simp)
    rw [discarded, ← h.groups q fun p hp => hq p (List.mem_append_left _ hp)]
    show (v.groups.set r none).getD q none = _
    rw [getD_set, if_neg (by simp [hrq])]
    rfl
  · rw [discarded]
    simp [h.sizes]
  · rw [discarded, mode']
    conv_lhs => rw [h.frame]
    rfl

/-- The stream's OPEN group, with the stream and the record. -/
def openAt (s : State) (i : Nat) : Option (Nat × Nat × Group) :=
  (s.stream i).group.bind fun r => (s.group? r).map fun g => (i, r, g)

/-- The discard of the OPEN groups of the first `n` streams. -/
theorem State.discardStreams_spec (s : State) (mode : Mode) (cause : Cause) (n : Nat)
    (hn : n ≤ s.streams.length) (good : ∀ i, s.streamGood i) :
    Discarded s ((List.range n).foldl (State.discardStream mode cause) s) mode cause
      ((List.range n).filterMap (openAt s)) := by
  induction n with
  | zero => exact .nil s mode cause
  | succ n ih =>
    have before := ih (by omega)
    rw [List.range_succ, List.foldl_append, List.filterMap_append, List.foldl_cons, List.foldl_nil]
    have earlierStreams : ∀ p ∈ (List.range n).filterMap (openAt s), p.1 < n ∧
        (s.stream p.1).group = some p.2.1 ∧ s.group? p.2.1 = some p.2.2 := by
      intro p hp
      obtain ⟨i, hi, e⟩ := List.mem_filterMap.1 hp
      simp only [openAt, Option.bind_eq_some_iff, Option.map_eq_some_iff] at e
      obtain ⟨r, hr, g, hg, rfl⟩ := e
      exact ⟨List.mem_range.1 hi, hr, hg⟩
    have newStream : ∀ p ∈ (List.range n).filterMap (openAt s), p.1 ≠ n := fun p hp => by
      have := (earlierStreams p hp).1
      omega
    rw [State.discardStream, before.streams n newStream]
    cases hr : (s.stream n).group with
    | none => simpa [openAt, hr] using before
    | some r =>
      obtain ⟨g, hg, hs, _⟩ := good n r hr
      have newRecord : ∀ p ∈ (List.range n).filterMap (openAt s), p.2.1 ≠ r := fun p hp e => by
        obtain ⟨hlt, hopen, hgroup⟩ := earlierStreams p hp
        obtain ⟨g', hg', hs', _⟩ := good p.1 p.2.1 hopen
        rw [e, hg] at hg'
        cases hg'
        omega
      have after := before.snoc n r g (by omega) hs hg newStream newRecord
      simpa [openAt, hr, hg] using after

/-- The discard of every OPEN group. -/
theorem State.discardOpen_spec (s : State) (mode : Mode) (cause : Cause)
    (sized : s.streams.length = Config.streams) (good : ∀ i, s.streamGood i) :
    Discarded s (s.discardOpen mode cause) mode cause s.openGroups :=
  s.discardStreams_spec mode cause Config.streams (by omega) good

/-- In the words of the statements, for a state `w` whose groups, streams, staging and fault list are those
the discards began with. -/
theorem Discarded.openDiscarded {s v w : State} {mode : Mode} {cause : Cause}
    (h : Discarded s v mode cause s.openGroups) (hg : w.groups = s.groups)
    (hs : ∀ i, (w.stream i).group = (s.stream i).group) (hst : w.staging = s.staging)
    (hf : w.faults = s.faults)
    (hq : w.faultSeq = s.faultSeq) (ha : w.alert = s.alert) :
    w.OpenDiscarded v mode cause ∧ v.credits = s.credits.giveBack s.mode.advertises w.openAmount := by
  have opened : w.openGroups = s.openGroups := by
    simp only [State.openGroups, State.group?, hg, hs]
  have members : w.openMembers = s.openMembers := by
    simp only [State.openMembers, opened, hst]
  obtain ⟨faults, seq, alert⟩ := listed_congr mode cause s.openGroups hf hq ha
  refine ⟨⟨?_, ?_, ?_, ?_⟩, ?_⟩
  · rw [opened]
    exact h.faults.trans faults.symm
  · rw [opened]
    exact h.faultSeq.trans seq.symm
  · rw [opened]
    exact h.alert.trans alert.symm
  · rw [opened, members, hst]
    exact h.staging
  · rw [State.openAmount, members]
    exact h.credits

end Sys2Proof.Machine
end

