-- ==== Sys2Proof/Laws/Flushes.lean ====
section
/-! SUPPORT. What the examination of the waiting flushes can do (R107 to R114): the order it goes in, what
it keeps, and which records and streams one examination leaves alone. -/

namespace Sys2Proof.Machine

variable {s : State}

/-! ### The records in use, in intake order -/

/-- The records in use are those that read as in use. -/
theorem State.mem_liveReads {i : Nat} {rec : ReadRecord} :
    (i, rec) ∈ s.liveReads ↔ s.read? i = some rec := by
  rw [State.liveReads, mem_inUse, State.read?, List.getD_eq_getElem?_getD]
  cases s.reads[i]? with
  | none => simp
  | some o => simp

/-- No index stands twice among the items in use. -/
theorem nodup_inUse {α : Type} (table : List (Option α)) : ((inUse table).map Prod.fst).Nodup := by
  have counted : ∀ (table : List (Option α)) (k : Nat),
      let used := ((table.zipIdx k).filterMap fun p => p.1.map fun a => (p.2, a)).map Prod.fst
      used.Nodup ∧ ∀ x ∈ used, k ≤ x := by
    intro table
    induction table with
    | nil => intro k; simp
    | cons a table ih =>
      intro k
      obtain ⟨nodup, above⟩ := ih (k + 1)
      cases a with
      | none =>
        simp only [List.zipIdx_cons, List.filterMap_cons, Option.map_none]
        exact ⟨nodup, fun x hx => by have := above x hx; omega⟩
      | some a =>
        simp only [List.zipIdx_cons, List.filterMap_cons, Option.map_some, List.map_cons,
          List.nodup_cons]
        refine ⟨⟨fun hx => by have := above k hx; omega, nodup⟩, fun x hx => ?_⟩
        rcases List.mem_cons.1 hx with rfl | hx
        · exact Nat.le_refl _
        · have := above x hx
          omega
  exact (counted table 0).1

/-- Inserting by key only changes the order. -/
theorem insertByKey_perm {α : Type} (key : α → Num32) (a : α) (l : List α) :
    (insertByKey key a l).Perm (a :: l) := by
  induction l with
  | nil => exact .refl _
  | cons b l ih =>
    rw [insertByKey]
    split
    · exact .refl _
    · exact (List.Perm.cons b ih).trans (.swap a b l)

/-- Sorting by key only changes the order. -/
theorem sortByKey_perm {α : Type} (key : α → Num32) (l : List α) : (sortByKey key l).Perm l := by
  induction l with
  | nil => exact .refl _
  | cons a l ih => exact (insertByKey_perm key a _).trans (ih.cons a)

/-- The intake order holds each record in use once. -/
theorem State.readOrder_nodup (s : State) : s.readOrder.Nodup := by
  rw [State.readOrder]
  exact ((sortByKey_perm _ s.liveReads).map _).nodup_iff.2 (nodup_inUse s.reads)

/-- The intake order holds the records in use. -/
theorem State.mem_readOrder {i : Nat} : i ∈ s.readOrder ↔ ∃ rec, s.read? i = some rec := by
  simp only [State.readOrder, List.mem_map]
  constructor
  · rintro ⟨⟨j, rec⟩, h, rfl⟩
    exact ⟨rec, State.mem_liveReads.1 ((mem_sortByKey _ _ _).1 h)⟩
  · rintro ⟨rec, h⟩
    exact ⟨(i, rec), (mem_sortByKey _ _ _).2 (State.mem_liveReads.2 h), rfl⟩

/-! ### What an examination keeps -/

/-- What no examination of a flush changes: groups, staging, marks, mode, the completions already formed
and the sizes of the tables. -/
structure State.FlushFrame (s t : State) : Prop where
  groups : t.groups = s.groups
  staging : t.staging = s.staging
  marks : t.marks = s.marks
  mode : t.mode = s.mode
  formed : s.formed <+: t.formed
  streams : t.streams.length = s.streams.length
  reads : t.reads.length = s.reads.length

/-- A state keeps what it has. -/
theorem State.FlushFrame.refl (s : State) : s.FlushFrame s :=
  ⟨rfl, rfl, rfl, rfl, List.prefix_refl _, rfl, rfl⟩

/-- One examination after another. -/
theorem State.FlushFrame.trans {a b c : State} (h : a.FlushFrame b) (k : b.FlushFrame c) :
    a.FlushFrame c :=
  ⟨k.groups.trans h.groups, k.staging.trans h.staging, k.marks.trans h.marks, k.mode.trans h.mode,
    h.formed.trans k.formed, k.streams.trans h.streams, k.reads.trans h.reads⟩

/-- A dropped completion. -/
theorem State.dropRead_frame (s : State) (i : Nat) : s.FlushFrame (s.dropRead i) := by
  rw [State.dropRead]
  split
  · exact .refl _
  · split <;> constructor <;>
      simp [State.restoreDiscards, State.modifyStream, State.freeRead, State.returnCredits]

/-- A completion formed or dropped. -/
theorem State.formRead_frame (s : State) (i : Nat) (status : Status) (data : List Byte) :
    s.FlushFrame (s.formRead i status data) := by
  rw [State.formRead]
  split
  · exact .refl _
  · split
    · refine State.FlushFrame.trans ?_ (State.dropRead_frame _ _)
      constructor <;> simp [State.modifyRead]
    · constructor <;> simp [State.modifyRead]

/-- One flush examined. -/
theorem State.settleFlush_frame (s : State) (i : Nat) : s.FlushFrame (s.settleFlush i) := by
  rw [State.settleFlush]
  split
  · exact .refl _
  · split
    · dsimp only
      split
      · refine State.FlushFrame.trans ?_ (State.formRead_frame _ _ _ _)
        constructor <;> simp [State.modifyRead]
      · constructor <;> simp [State.modifyRead]
    · split
      · rw [State.takeStreamFlush]
        refine State.FlushFrame.trans ?_ (State.formRead_frame _ _ _ _)
        constructor <;> simp [State.modifyRead, State.clearDiscards, State.modifyStream]
      · exact .refl _
    · exact .refl _

/-- Several flushes examined. -/
theorem State.settleFlush_foldl_frame (l : List Nat) (s : State) :
    s.FlushFrame (l.foldl State.settleFlush s) := by
  induction l generalizing s with
  | nil => exact .refl _
  | cons a l ih => exact (State.settleFlush_frame s a).trans (ih _)

/-- A dropped completion leaves the other records. -/
theorem State.read?_dropRead_of_ne (s : State) {i j : Nat} (h : i ≠ j) :
    (s.dropRead i).read? j = s.read? j := by
  rw [State.dropRead]
  split
  · rfl
  · have freed : ∀ v : State, v.reads = s.reads.set i none → v.read? j = s.read? j := by
      intro v hv
      simp only [State.read?, hv, getD_set, h, false_and, if_false]
    split <;> exact freed _ rfl

/-- A formed completion leaves the other records. -/
theorem State.read?_formRead_of_ne (s : State) {i j : Nat} (h : i ≠ j) (status : Status)
    (data : List Byte) : (s.formRead i status data).read? j = s.read? j := by
  rw [State.formRead]
  split
  · rfl
  · dsimp only
    split
    · rw [State.read?_dropRead_of_ne _ h, State.read?_modifyRead, if_neg h]
    · show State.read? (State.modifyRead _ _ _) j = _
      rw [State.read?_modifyRead, if_neg h]

/-- One flush examined leaves the other records. -/
theorem State.read?_settleFlush_of_ne (s : State) {i j : Nat} (h : i ≠ j) :
    (s.settleFlush i).read? j = s.read? j := by
  rw [State.settleFlush]
  split
  · rfl
  · split
    · dsimp only
      split
      · rw [State.read?_formRead_of_ne _ h, State.read?_modifyRead, if_neg h]
      · rw [State.read?_modifyRead, if_neg h]
    · split
      · rw [State.takeStreamFlush, State.read?_formRead_of_ne _ h, State.read?_modifyRead, if_neg h]
        rfl
      · rfl
    · rfl

/-- Several flushes examined leave the other records. -/
theorem State.read?_settleFlush_foldl (l : List Nat) (s : State) {j : Nat} (h : j ∉ l) :
    (l.foldl State.settleFlush s).read? j = s.read? j := by
  induction l generalizing s with
  | nil => rfl
  | cons a l ih =>
    rw [List.mem_cons, not_or] at h
    rw [List.foldl_cons, ih _ h.2, State.read?_settleFlush_of_ne s (Ne.symm h.1)]

/-! ### The conditions -/

/-- A flush's group condition, of the streams `p` admits (R107, R111). -/
theorem State.groupsSafe_iff (s : State) (p : Nat → Bool) (bound : Option Num32) :
    s.groupsSafe p bound = true ↔ s.FlushGroupsSafe (fun st => p st = true) bound := by
  simp only [State.groupsSafe, State.uncommittedGroups, List.all_eq_true, List.mem_filter,
    State.FlushGroupsSafe]
  constructor
  · intro h r g n b hg hs hb he hp
    have safe := h (r, g)
    simp only [State.mem_closedGroups, hg, hs, hb, Option.any_some, he, hp] at safe
    refine ⟨?_, ?_, ?_⟩ <;> intro hx <;> simp [hx, GroupState.uncommitted] at safe
  · rintro h ⟨r, g⟩ ⟨closed, uncommitted⟩
    obtain ⟨hg, _⟩ := State.mem_closedGroups.1 closed
    by_contra hx
    simp only [Bool.not_eq_true', Bool.not_eq_false, Bool.and_eq_true, Option.any_eq_true] at hx
    obtain ⟨hp, b, hb, n, hn, he⟩ := hx
    obtain ⟨_, _, _⟩ := h r g n b hg hn hb he hp
    revert uncommitted
    cases state : g.state <;> simp_all [GroupState.uncommitted]

/-- An event that ends in OPERATING examines the flushes in intake order, then the claims. -/
theorem State.endEvent_of_operating (operating : s.mode = .operating) :
    s.endEvent = (s.readOrder.foldl State.settleFlush s).settleClaims := by
  have settled : s.settleFlushes = s.readOrder.foldl State.settleFlush s := by
    rw [State.settleFlushes, if_pos operating]
  have mode := (State.settleFlush_foldl_frame s.readOrder s).mode
  rw [State.endEvent_of_not_holdup (by rw [settled, mode, operating]; simp), settled]

end Sys2Proof.Machine
end

