-- ==== Sys2Proof/Laws/Fails.lean ====
section
/-! SUPPORT. What failing every record not in DONE does: at hold-up entry and at the entry into HALTED
(R106, R114 to R116). -/

namespace Sys2Proof.Machine

/-- The record has its completion. -/
def ReadRecord.isDone (rec : ReadRecord) : Bool :=
  match rec.state with
  | .done _ => true
  | _ => false

/-- What becomes of a record: in DONE it stays, an orphan's is free, any other has FAILED. -/
def ReadRecord.failed (rec : ReadRecord) : Option ReadRecord :=
  if rec.isDone then some rec
  else if rec.orphan then none
  else some { rec with state := .done { tag := rec.tag, status := .failed, data := [] } }

/-- The record at an index fails with a completion for the requester. -/
def State.failsLive (s : State) (i : Nat) : Bool :=
  (s.read? i).any fun rec => !rec.isDone && !rec.orphan

/-- The record at an index fails as an orphan. -/
def State.failsOrphan (s : State) (i : Nat) : Bool :=
  (s.read? i).any fun rec => !rec.isDone && rec.orphan

/-- The records of `ps` have failed out of `s`, and nothing else. -/
structure Failed (s v : State) (ps : List Nat) : Prop where
  reads : ∀ i, v.read? i = if i ∈ ps then (s.read? i).bind ReadRecord.failed else s.read? i
  formed : v.formed = s.formed ++ (ps.filter s.failsLive).map .record
  credits : v.credits = s.credits.giveBack s.mode.advertises
    { wh := 0, wd := 0, rd := (ps.filter s.failsOrphan).length }
  tags : ∀ t info, s.tag t = .outstanding info →
    v.tag t = .outstanding { info with detached := true } ∨
      v.tag t = .outstanding info ∧ ∀ i ∈ ps, ∀ rec, s.read? i = some rec → rec.state ≠ .issued t
  groupOf : ∀ k, (v.stream k).group = (s.stream k).group
  streams : (∀ i rec, s.read? i = some rec → rec.orphan = false) → v.streams = s.streams
  sizes : v.streams.length = s.streams.length
  frame : v =
    { s with
      reads := v.reads, formed := v.formed, credits := v.credits, tags := v.tags
      streams := v.streams }

/-- Nothing failed. -/
theorem Failed.nil (s : State) : Failed s s [] := by
  refine
    ⟨by simp, by simp, rfl, fun t info h => .inr ⟨h, by simp⟩, fun _ => rfl, fun _ => rfl, rfl, rfl⟩

/-- What forming a FAILED completion does to a record that is not in DONE. -/
theorem State.formFailed (s : State) (i : Nat) (rec : ReadRecord) (h : s.read? i = some rec)
    (open' : rec.isDone = false) :
    let v := s.formRead i .failed []
    (∀ j, v.read? j = if i = j then rec.failed else s.read? j) ∧
      v.formed = s.formed ++ (if rec.orphan then [] else [.record i]) ∧
      v.credits = s.credits.giveBack s.mode.advertises
        { wh := 0, wd := 0, rd := if rec.orphan then 1 else 0 } ∧
      v.tags = s.tags ∧ (∀ k, (v.stream k).group = (s.stream k).group) ∧
      (rec.orphan = false → v.streams = s.streams) ∧ v.streams.length = s.streams.length ∧
      v = { s with
        reads := v.reads, formed := v.formed, credits := v.credits, tags := v.tags
        streams := v.streams } := by
  intro v
  let done : ReadState := .done { tag := rec.tag, status := .failed, data := [] }
  have modified : s.modifyRead i (fun rec => { rec with
      state := .done { tag := rec.tag, status := .failed, data := [] } }) =
      { s with reads := s.reads.set i (some { rec with state := done }) } := by
    simp only [State.modifyRead, modify_eq_set s.reads i rec _ h]
    rfl
  have inTable := lt_length_of_getD h
  have placed : ∀ (a : Option ReadRecord) (w : State), w.reads = s.reads.set i a → ∀ j,
      w.read? j = if i = j then a else s.read? j := by
    intro a w hw j
    simp only [State.read?, hw, getD_set]
    by_cases e : i = j
    · subst e
      simp [inTable]
    · simp [e]
  have formed : v = if rec.orphan then
      State.dropRead { s with reads := s.reads.set i (some { rec with state := done }) } i
      else { s with
        reads := s.reads.set i (some { rec with state := done })
        formed := s.formed ++ [.record i] } := by
    simp only [v, State.formRead, h, modified]
  cases orphan : rec.orphan with
  | false =>
    rw [formed.trans (if_neg (by simp [orphan]))]
    refine ⟨fun j => ?_, rfl, rfl, rfl, fun k => rfl, fun _ => rfl, rfl, rfl⟩
    rw [ReadRecord.failed, open', orphan]
    exact placed _ _ rfl j
  | true =>
    have here : State.read? { s with reads := s.reads.set i (some { rec with state := done }) } i =
        some { rec with state := done } := by
      rw [placed _ _ rfl i, if_pos rfl]
    have freed : State.freeRead { s with reads := s.reads.set i (some { rec with state := done }) } i =
        { s with
          reads := s.reads.set i none
          credits := s.credits.giveBack s.mode.advertises { wh := 0, wd := 0, rd := 1 } } := by
      simp only [State.freeRead, State.returnCredits, List.set_set]
    rw [formed.trans (if_pos orphan), State.dropRead, here]
    dsimp only
    rw [freed]
    have gone : ∀ j, (if i = j then none else s.read? j) =
        if i = j then rec.failed else s.read? j := by
      intro j
      rw [ReadRecord.failed, open', orphan]
      rfl
    split
    · refine ⟨fun j => (placed _ _ rfl j).trans (gone j),
        by simp [State.restoreDiscards, State.modifyStream], rfl, rfl, fun k => ?_, by simp, ?_, rfl⟩
      · rw [State.restoreDiscards, State.stream_modifyStream]
        split <;> rfl
      · simp [State.restoreDiscards, State.modifyStream]
    · exact
        ⟨fun j => (placed _ _ rfl j).trans (gone j), by simp, rfl, rfl, fun k => rfl, by simp, rfl, rfl⟩

/-- Failing a record that is not in DONE: an ISSUED read's tag is detached, then the completion is formed. -/
theorem State.failRead_open (s : State) (i : Nat) (rec : ReadRecord) (h : s.read? i = some rec)
    (open' : rec.isDone = false) :
    ∃ tags, s.failRead i = State.formRead { s with tags := tags } i .failed [] ∧
      ∀ t info, s.tag t = .outstanding info →
        tags.getD t .free = .outstanding { info with detached := true } ∨
          tags.getD t .free = .outstanding info ∧ rec.state ≠ .issued t := by
  have kept : ∀ t info, s.tag t = .outstanding info → (∀ t, rec.state ≠ .issued t) →
      s.tags.getD t .free = .outstanding { info with detached := true } ∨
        s.tags.getD t .free = .outstanding info ∧ rec.state ≠ .issued t :=
    fun t info ht hr => .inr ⟨ht, hr t⟩
  rw [State.failRead, h]
  dsimp only
  cases state : rec.state with
  | done c => simp [ReadRecord.isDone, state] at open'
  | held => exact ⟨s.tags, rfl, fun t info ht => state ▸ kept t info ht (by simp [state])⟩
  | waiting => exact ⟨s.tags, rfl, fun t info ht => state ▸ kept t info ht (by simp [state])⟩
  | issued n =>
    dsimp only
    rw [State.detachTag]
    split
    · next info hn =>
      refine ⟨_, rfl, fun t info' ht => ?_⟩
      show (s.tags.set n _).getD t .free = _ ∨ (s.tags.set n _).getD t .free = _ ∧ _
      rw [getD_set]
      by_cases e : n = t
      · subst e
        rw [ht] at hn
        cases hn
        left
        rw [if_pos]
        refine ⟨rfl, ?_⟩
        by_contra outside
        rw [State.tag, List.getD_eq_getElem?_getD, List.getElem?_eq_none (by omega)] at ht
        cases ht
      · right
        rw [if_neg (by simp [e])]
        exact ⟨ht, by simp [e]⟩
    · next other =>
      refine ⟨s.tags, rfl, fun t info' ht => .inr ⟨ht, fun e => ?_⟩⟩
      cases e
      exact other _ ht

/-- One more record failed. -/
theorem Failed.snoc {s v : State} {ps : List Nat} (h : Failed s v ps) (i : Nat) (new : i ∉ ps) :
    Failed s (v.failRead i) (ps ++ [i]) := by
  have same : v.read? i = s.read? i := by
    rw [h.reads, if_neg new]
  have mode' : v.mode = s.mode := by
    rw [h.frame]
  have orphans : (ps ++ [i]).filter s.failsOrphan =
      ps.filter s.failsOrphan ++ [i].filter s.failsOrphan := List.filter_append ..
  have lives : (ps ++ [i]).filter s.failsLive = ps.filter s.failsLive ++ [i].filter s.failsLive :=
    List.filter_append ..
  have readsOf : ∀ (w : State) (o : Option ReadRecord), o = (s.read? i).bind ReadRecord.failed →
      (∀ j, w.read? j = if i = j then o else v.read? j) →
      ∀ j, w.read? j = if j ∈ ps ++ [i] then (s.read? j).bind ReadRecord.failed else s.read? j := by
    intro w o ho hw j
    rw [hw, h.reads]
    by_cases e : i = j
    · subst e
      simp [ho]
    · have e' : j ≠ i := fun x => e x.symm
      simp [e, e']
  have unchanged : v.failRead i = v → (s.read? i).bind ReadRecord.failed = s.read? i →
      s.failsLive i = false → s.failsOrphan i = false →
      (∀ rec t, s.read? i = some rec → rec.state ≠ .issued t) →
      Failed s (v.failRead i) (ps ++ [i]) := by
    intro e hr hl ho ht
    rw [e]
    refine
      ⟨readsOf v _ rfl fun j => ?_, ?_, ?_, fun t info hi => ?_, h.groupOf, h.streams, h.sizes, h.frame⟩
    · by_cases e : i = j
      · subst e
        rw [if_pos rfl, hr, same]
      · rw [if_neg e]
    · rw [lives]
      simpa [hl] using h.formed
    · rw [orphans]
      simpa [ho] using h.credits
    · rcases h.tags t info hi with x | ⟨x, y⟩
      · exact .inl x
      · refine .inr ⟨x, fun j hj rec hrec => ?_⟩
        rcases List.mem_append.1 hj with hj | hj
        · exact y j hj rec hrec
        · rw [List.mem_singleton] at hj
          subst hj
          exact ht rec t hrec
  cases hs : s.read? i with
  | none =>
    refine unchanged ?_ (by simp [hs]) (by simp [State.failsLive, hs]) (by simp [State.failsOrphan, hs])
      (by simp [hs])
    rw [State.failRead, same, hs]
  | some rec =>
    cases done : rec.isDone with
    | true =>
      have state : ∃ c, rec.state = .done c := by
        cases e : rec.state <;> simp_all [ReadRecord.isDone]
      obtain ⟨c, state⟩ := state
      refine unchanged ?_ (by simp [hs, ReadRecord.failed, done]) (by simp [State.failsLive, hs, done])
        (by simp [State.failsOrphan, hs, done]) fun r t e => by
          rw [hs] at e
          cases e
          simp [state]
      rw [State.failRead, same, hs]
      simp only [state]
    | false =>
      obtain ⟨tags, failed, tagsOf⟩ := v.failRead_open i rec (same.trans hs) done
      obtain ⟨reads, formed, credits, tags', groupOf, streams, sizes, frame⟩ :=
        State.formFailed { v with tags := tags } i rec (same.trans hs) done
      rw [failed]
      refine ⟨readsOf _ rec.failed (by simp [hs]) reads, ?_, ?_, fun t info hi => ?_, fun k => ?_,
        fun live => ?_, ?_, ?_⟩
      · rw [formed, lives]
        show v.formed ++ _ = _
        rw [h.formed]
        cases orphan : rec.orphan <;> simp [State.failsLive, hs, done, orphan]
      · rw [credits, orphans]
        show (v.credits.giveBack v.mode.advertises _) = _
        rw [mode', h.credits, UpperCredits.giveBack_add]
        cases orphan : rec.orphan <;> simp [State.failsOrphan, hs, done, orphan, Amount.add]
      · rw [show (State.formRead { v with tags := tags } i .failed []).tag t = tags.getD t .free from by
          rw [State.tag, tags']]
        rcases h.tags t info hi with x | ⟨x, y⟩
        · rcases tagsOf t _ x with z | ⟨z, _⟩
          · exact .inl z
          · exact .inl z
        · rcases tagsOf t _ x with z | ⟨z, w⟩
          · exact .inl z
          · refine .inr ⟨z, fun j hj rec' hrec => ?_⟩
            rcases List.mem_append.1 hj with hj | hj
            · exact y j hj rec' hrec
            · rw [List.mem_singleton] at hj
              subst hj
              rw [hs] at hrec
              cases hrec
              exact w
      · exact (groupOf k).trans (h.groupOf k)
      · exact (streams (live i rec hs)).trans (h.streams live)
      · exact sizes.trans h.sizes
      · refine frame.trans ?_
        rw [h.frame]

/-- Every record not in DONE has failed. -/
theorem State.failReads_spec (s : State) : Failed s s.failReads s.readOrder := by
  have steps : ∀ (l ps : List Nat) (v : State), Failed s v ps → (ps ++ l).Nodup →
      Failed s (l.foldl State.failRead v) (ps ++ l) := by
    intro l
    induction l with
    | nil =>
      intro ps v h _
      simpa using h
    | cons i l ih =>
      intro ps v h nodup
      have new : i ∉ ps := fun hi => (List.nodup_append.1 nodup).2.2 i hi i List.mem_cons_self rfl
      have next := ih (ps ++ [i]) _ (h.snoc i new) (by simpa using nodup)
      simpa using next
  exact steps s.readOrder [] s (.nil s) (by simpa using s.readOrder_nodup)

/-! ### Counting the records in use -/

/-- The items in use that satisfy `p` are as many as the table's. -/
theorem inUse_countP {α : Type} (table : List (Option α)) (p : α → Bool) :
    (inUse table).countP (fun x => p x.2) = table.countP fun o => o.any p := by
  have counted : ∀ (table : List (Option α)) (k : Nat),
      ((table.zipIdx k).filterMap fun x => x.1.map fun a => (x.2, a)).countP (fun x => p x.2) =
        table.countP fun o => o.any p := by
    intro table
    induction table with
    | nil => intro k; rfl
    | cons a table ih =>
      intro k
      cases a with
      | none => simpa using ih (k + 1)
      | some a => simpa [List.countP_cons] using ih (k + 1)
  exact counted table 0

/-- Counting over the intake order is counting over the table. -/
theorem State.readOrder_count (s : State) (p : ReadRecord → Bool) :
    (s.readOrder.filter fun i => (s.read? i).any p).length = s.reads.countP fun o => o.any p := by
  have order : s.readOrder.filter (fun i => (s.read? i).any p) =
      ((sortByKey (fun x => x.2.intake) s.liveReads).filter fun x => p x.2).map Prod.fst := by
    rw [State.readOrder, List.filter_map]
    congr 1
    refine List.filter_congr fun x hx => ?_
    have := State.mem_liveReads.1 ((mem_sortByKey _ _ _).1 hx)
    simp [this]
  rw [order, List.length_map, ← List.countP_eq_length_filter,
    (sortByKey_perm _ s.liveReads).countP_eq, State.liveReads, inUse_countP]

end Sys2Proof.Machine
end

