-- ==== Sys2Proof/Laws/Journal.lean ====
section
/-! SUPPORT. What a test of the ring space does, case by case (R77 to R79). -/

namespace Sys2Proof.Machine

/-- The front group fits and no group is being written: it is reserved. -/
theorem State.reserve_of_fits {s : State} {r : Nat} {rest : List Nat} {g : Group} {head : Pos}
    (mode : s.mode.journals = true) (queue : s.journal.queue = r :: rest)
    (idle : s.journal.current = none) (position : s.journal.head = some head)
    (front : s.group? r = some g) (fits : footprint g.count ≤ s.freeLines) :
    s.reserve = s.reserveGroup r rest g.count head := by
  simp [State.reserve, mode, queue, idle, position, front, Nat.not_lt.mpr fits]

/-- The front group fits and a group is being written: it no longer waits for space. -/
theorem State.reserve_of_busy {s : State} {r : Nat} {rest : List Nat} {g : Group} {head : Pos}
    (mode : s.mode.journals = true) (queue : s.journal.queue = r :: rest)
    (busy : s.journal.current ≠ none) (position : s.journal.head = some head)
    (front : s.group? r = some g) (fits : footprint g.count ≤ s.freeLines) :
    s.reserve = s.setSpaceWait false := by
  simp [State.reserve, mode, queue, Option.isSome_iff_ne_none.mpr busy, position, front,
    Nat.not_lt.mpr fits]

/-- The front group does not fit: it waits for space, whether or not a group is being written. -/
theorem State.reserve_of_full {s : State} {r : Nat} {rest : List Nat} {g : Group} {head : Pos}
    (mode : s.mode.journals = true) (queue : s.journal.queue = r :: rest)
    (position : s.journal.head = some head) (front : s.group? r = some g)
    (full : s.freeLines < footprint g.count) :
    s.reserve = s.setSpaceWait true := by
  simp [State.reserve, mode, queue, position, front, full]

/-- All a test of the space can do: nothing, the flag, or the reservation of the front group. -/
theorem State.reserve_cases (s : State) :
    s.reserve = s ∨ (∃ waits, s.reserve = s.setSpaceWait waits) ∨
      ∃ r rest g head, s.journal.queue = r :: rest ∧ s.journal.current = none ∧
        s.journal.head = some head ∧ s.group? r = some g ∧ footprint g.count ≤ s.freeLines ∧
        s.reserve = s.reserveGroup r rest g.count head := by
  unfold State.reserve
  split
  · next r rest head queue position =>
    split
    · exact .inl rfl
    · next g front =>
      split
      · split
        · exact .inr (.inl ⟨true, rfl⟩)
        · next fits =>
          split
          · exact .inr (.inl ⟨false, rfl⟩)
          · next busy =>
            exact .inr (.inr ⟨r, rest, g, head, queue, by simpa using busy, position, front,
              Nat.not_lt.mp fits, rfl⟩)
      · exact .inl rfl
  · exact .inl rfl

end Sys2Proof.Machine
end

