-- ==== Sys2Proof/Laws/Order.lean ====
section
/-! SUPPORT. The comparison of R4 on numbers that lie within 2^31 of one another, where it is an order, and
the sorted views: no item stands behind a later one. -/

namespace Sys2Proof.Machine

/-- A number lies in the half range that begins at a base. -/
def InWindow (base n : Num32) : Prop := (n - base).toNat < 2 ^ 31

/-- In one half range the comparison is that of the distances from its base (R4). -/
theorem earlier_iff {base a b : Num32} (ha : InWindow base a) (hb : InWindow base b) :
    earlier a b = true ↔ (a - base).toNat < (b - base).toNat := by
  simp only [InWindow] at ha hb
  simp only [earlier, Bool.and_eq_true, decide_eq_true_eq]
  have h : b - a = (b - base) - (a - base) := by
    rw [BitVec.sub_eq_add_neg, BitVec.sub_eq_add_neg b, BitVec.sub_eq_add_neg a]
    bv_omega
  rw [h, BitVec.toNat_sub]
  omega

/-- An item in front of another is not later than it: the list is in the order of its keys. -/
def Ordered {α : Type} (key : α → Num32) (l : List α) : Prop :=
  l.Pairwise fun a b => earlier (key b) (key a) = false

/-- Inserting by key keeps a list in order. -/
theorem insertByKey_ordered {α : Type} (key : α → Num32) {base : Num32} (a : α) (l : List α)
    (ha : InWindow base (key a)) (hl : ∀ x ∈ l, InWindow base (key x)) (h : Ordered key l) :
    Ordered key (insertByKey key a l) := by
  induction l with
  | nil => simp [insertByKey, Ordered]
  | cons b l ih =>
    obtain ⟨hb, hr⟩ := List.pairwise_cons.1 h
    have wb := hl b List.mem_cons_self
    have wl : ∀ x ∈ l, InWindow base (key x) := fun x hx => hl x (List.mem_cons_of_mem b hx)
    rw [insertByKey]
    split
    · next hab =>
      refine List.pairwise_cons.2 ⟨fun x hx => ?_, h⟩
      have lt := (earlier_iff ha wb).1 hab
      rw [Bool.eq_false_iff]
      intro hxa
      rcases List.mem_cons.1 hx with rfl | hx
      · have := (earlier_iff wb ha).1 hxa
        omega
      · have h1 := (earlier_iff (wl x hx) ha).1 hxa
        have h2 := hb x hx
        rw [Bool.eq_false_iff, ne_eq, earlier_iff (wl x hx) wb] at h2
        omega
    · next hab =>
      refine List.pairwise_cons.2 ⟨fun x hx => ?_, ih wl hr⟩
      rcases (mem_insertByKey key a x l).1 hx with rfl | hx
      · simpa using hab
      · exact hb x hx

/-- Sorting by key puts a list in order. -/
theorem sortByKey_ordered {α : Type} (key : α → Num32) {base : Num32} (l : List α)
    (h : ∀ x ∈ l, InWindow base (key x)) : Ordered key (sortByKey key l) := by
  induction l with
  | nil => exact List.Pairwise.nil
  | cons a l ih =>
    have hl : ∀ x ∈ l, InWindow base (key x) := fun x hx => h x (List.mem_cons_of_mem a hx)
    exact insertByKey_ordered key a _ (h a List.mem_cons_self)
      (fun x hx => hl x ((mem_sortByKey key x l).1 hx)) (ih hl)

/-- The closed groups stand in the order of their serials. -/
theorem State.closedGroups_ordered {s : State} {base : Num32}
    (h : ∀ r g n, s.group? r = some g → g.serial = some n → InWindow base n) :
    Ordered (fun p : Nat × Group => p.2.serial.getD 0#32) s.closedGroups := by
  refine sortByKey_ordered (base := base) _ _ fun ⟨r, g⟩ hp => ?_
  have closed : (r, g) ∈ s.closedGroups := (mem_sortByKey _ _ _).2 hp
  obtain ⟨hg, hs⟩ := State.mem_closedGroups.1 closed
  obtain ⟨n, hn⟩ := Option.isSome_iff_exists.1 hs
  simpa [hn] using h r g n hg hn

end Sys2Proof.Machine
end

