-- ==== Sys2Proof/Laws/Resend.lean ====
section
/-! SUPPORT. What the re-send of R171 does: which packets go out, under which sequences and charges, and
what it leaves of the buffer. -/

namespace Sys2Proof.Machine

/-- The sequence `n` places on. -/
theorem seq_succ (next : Seq) (n : Nat) :
    next + 1#12 + BitVec.ofNat 12 n = next + BitVec.ofNat 12 (n + 1) := by
  rw [BitVec.add_assoc, ← BitVec.ofNat_add_ofNat, BitVec.add_comm 1#12]

/-- The re-send over the rest of a buffer, the packets of `done` behind it. -/
theorem State.resendGo_spec (s : State) (done rest : List LowerPacket) :
    let marked := rest.filter LowerPacket.resend
    let spent := fun n : Nat =>
      (marked.take n).foldl (fun c p => c.raise p.body.charge) s.lowerCredits.consumed
    let available := fun n : Nat => State.lowerAvailable { s with
      lowerCredits := { limit := s.lowerCredits.limit, consumed := spent n } }
    let rank := fun i : Nat => (rest.take i).countP LowerPacket.resend
    ∃ k buffer, k ≤ marked.length ∧
      (∀ n p, n < k → marked[n]? = some p → p.body.charge.fits (available n) = true) ∧
      (∀ p, marked[k]? = some p → p.body.charge.fits (available k) = false) ∧
      buffer.length = rest.length ∧
      (∀ i p, rest[i]? = some p → buffer[i]? = some
        (if p.resend = true ∧ rank i < k then
          { p with seq := s.lower.nextTx + BitVec.ofNat 12 (rank i), resend := false }
        else p)) ∧
      s.resendGo done rest =
        { s with
          sent := s.sent ++ (marked.take k).zipIdx.map
            (fun p => .request (s.lower.nextTx + BitVec.ofNat 12 p.2) p.1.body)
          lowerCredits := { limit := s.lowerCredits.limit, consumed := spent k }
          lower := { s.lower with
            nextTx := s.lower.nextTx + BitVec.ofNat 12 k
            replayTimer := s.lower.replayTimer || decide (0 < k) }
          lowerRetry := done ++ buffer } := by
  induction rest generalizing s done with
  | nil =>
    refine ⟨0, [], Nat.zero_le _, ?_, ?_, rfl, ?_, ?_⟩
    · intro n p h
      omega
    · intro p h
      cases h
    · intro i p h
      cases h
    · simp [State.resendGo]
  | cons p rest ih =>
    by_cases hp : p.resend = true
    · by_cases hf : p.body.charge.fits s.lowerAvailable = true
      · obtain ⟨k, buffer, hk, fit, stop, len, read, go⟩ :=
          ih ((s.chargeLower p.body).emit (.request s.lower.nextTx p.body))
            (done ++ [{ p with seq := s.lower.nextTx, resend := false }])
        refine ⟨k + 1, { p with seq := s.lower.nextTx, resend := false } :: buffer, ?_, ?_, ?_, ?_, ?_, ?_⟩
        · simp only [List.filter_cons, hp, if_true, List.length_cons]
          omega
        · intro n q hn hq
          simp only [List.filter_cons, hp, if_true] at hq ⊢
          cases n with
          | zero =>
            simp only [List.getElem?_cons_zero, Option.some.injEq] at hq
            subst hq
            exact hf
          | succ n => exact fit n q (by omega) hq
        · intro q hq
          simp only [List.filter_cons, hp, if_true] at hq ⊢
          exact stop q hq
        · simp [len]
        · intro i q hq
          cases i with
          | zero =>
            simp only [List.getElem?_cons_zero, Option.some.injEq] at hq
            subst hq
            simp [hp]
          | succ i =>
            simp only [List.getElem?_cons_succ, List.take_succ_cons, List.countP_cons, hp, if_true] at hq ⊢
            rw [read i q hq]
            simp only [State.emit, State.chargeLower, Nat.add_lt_add_iff_right, seq_succ]
        · rw [State.resendGo, if_pos hp, if_pos hf, go]
          simp only [List.filter_cons, hp, if_true, List.take_succ_cons, List.zipIdx_cons, List.map_cons]
          have shifted : ∀ l : List LowerPacket,
              l.zipIdx.map (fun q => Sent.request
                (s.lower.nextTx + BitVec.ofNat 12 (q.2 + 1)) q.1.body) =
              (l.zipIdx 1).map (fun q => Sent.request
                (s.lower.nextTx + BitVec.ofNat 12 q.2) q.1.body) := by
            intro l
            rw [List.zipIdx_succ, List.map_map]
            exact List.map_congr_left fun q _ => rfl
          simp [State.emit, State.chargeLower, shifted, seq_succ]
      · refine ⟨0, p :: rest, Nat.zero_le _, ?_, ?_, rfl, ?_, ?_⟩
        · intro n q h
          omega
        · intro q hq
          simp only [List.filter_cons, hp, if_true, List.getElem?_cons_zero, Option.some.injEq] at hq
          subst hq
          simpa using hf
        · intro i q hq
          simp [hq]
        · rw [State.resendGo, if_pos hp, if_neg hf]
          simp
    · obtain ⟨k, buffer, hk, fit, stop, len, read, go⟩ := ih s (done ++ [p])
      refine ⟨k, p :: buffer, ?_, ?_, ?_, ?_, ?_, ?_⟩
      · simpa [List.filter_cons, hp] using hk
      · simpa [List.filter_cons, hp] using fit
      · simpa [List.filter_cons, hp] using stop
      · simp [len]
      · intro i q hq
        cases i with
        | zero =>
          simp only [List.getElem?_cons_zero, Option.some.injEq] at hq
          subst hq
          simp [hp]
        | succ i =>
          simp only [List.getElem?_cons_succ, List.take_succ_cons, List.countP_cons, hp] at hq ⊢
          exact read i q hq
      · rw [State.resendGo, if_neg hp, go]
        simp [hp]

end Sys2Proof.Machine
end

