-- ==== Sys2Proof/WellFormed.lean ====
section
/-! DEFINITION. Which terms of `Instr` are commands of their row: a packet stands under the row its
class byte belongs to (R208), and a management code stands under UNKNOWN_COMMAND_CODE only when the
command table lacks it (R193). -/

namespace Sys2Proof

/-- The class byte of a packet (R208), absent for no bytes at all. -/
def classByte (bytes : List Byte) : Option Byte := bytes.head?

/-- The class bytes of the link units INIT, ACK, NAK and CREDIT (R208). -/
def linkUnitClasses : List Byte := [0x81#8, 0x82#8, 0x83#8, 0x84#8]

/-- The command codes of the command table (chapter 11.4). -/
def commandCodes : List Byte :=
  [0x01#8, 0x02#8, 0x10#8, 0x11#8, 0x20#8, 0x21#8, 0x22#8, 0x23#8, 0x30#8, 0x40#8]

/-- A packet that no link-unit row covers: it has a first byte, and that byte is no link unit's. -/
def Instr.isTransactionBytes (bytes : List Byte) : Bool :=
  match classByte bytes with
  | none => false
  | some b => !linkUnitClasses.contains b

/-- Whether a term is a command of its row. -/
def Instr.wellFormed : Instr → Bool
  | .transactionPacket _ bytes => Instr.isTransactionBytes bytes
  | .init _ bytes => classByte bytes == some 0x81#8
  | .ack _ bytes => classByte bytes == some 0x82#8
  | .nak _ bytes => classByte bytes == some 0x83#8
  | .credit _ bytes => classByte bytes == some 0x84#8
  | .unknownCommandCode code _ => !commandCodes.contains code
  | .powerOnReset _ _ => true
  | .warmReset => true
  | .pfwNAsserted => true
  | .pfwNDeasserted => true
  | .ackTimerExpiry _ => true
  | .replayTimerExpiry _ => true
  | .trainingTimerExpiry _ => true
  | .refreshTimerExpiry => true
  | .lowerHoldTimerExpiry => true
  | .budgetTimerExpiry => true
  | .identify _ => true
  | .readStatus _ => true
  | .setJournal _ => true
  | .setParameters _ => true
  | .writePendingEntry _ => true
  | .readPendingEntry _ => true
  | .commitEntry _ => true
  | .readEntry _ => true
  | .start _ => true
  | .readFault _ => true
  | .takeRequest => true
  | .linkDownMarkerAtHead => true
  | .holdupIntake => true
  | .arbiterGrant => true
  | .reservation => true
  | .applyTakeGroup => true
  | .checkpointStart => true
  | .completionTaken => true
  | .creditUnitSent => true

end Sys2Proof
end

