-- ==== Sys2Proof/Tests/Slice0.lean ====
section
/-! SUPPORT. Small tests: well-formedness, the checks of R208, worked values of the spec, and for every
statement with hypotheses a state and operands that meet them (`witness_…`). -/

namespace Sys2Proof.Tests

open Sys2Proof Sys2Proof.Machine

-- Each kernel evaluation waits for the one before it: elaborated in parallel, each would hold a thread.
set_option Elab.async false

/-! ### Well-formedness -/

theorem test_wf_transaction_needs_a_class_byte :
    (Instr.transactionPacket .upper []).wellFormed = false := by decide
theorem test_wf_transaction_refuses_a_link_unit_class :
    (Instr.transactionPacket .lower [0x81#8]).wellFormed = false ∧
      (Instr.transactionPacket .lower [0x84#8]).wellFormed = false := by decide
theorem test_wf_init_refuses_another_class : (Instr.init .upper [0x82#8]).wellFormed = false := by
  decide
theorem test_wf_ack_refuses_another_class : (Instr.ack .upper [0x83#8]).wellFormed = false := by
  decide
theorem test_wf_nak_refuses_another_class : (Instr.nak .upper []).wellFormed = false := by decide
theorem test_wf_credit_refuses_another_class : (Instr.credit .lower [0x00#8]).wellFormed = false := by
  decide
theorem test_wf_unknown_refuses_a_known_code :
    (Instr.unknownCommandCode 0x30#8 []).wellFormed = false := by decide
theorem test_wf_accepts :
    (Instr.transactionPacket .upper [0x00#8]).wellFormed = true ∧
      (Instr.init .lower [0x81#8]).wellFormed = true ∧
      (Instr.unknownCommandCode 0x99#8 []).wellFormed = true := by decide

/-! ### Which command a packet or a transaction is (R192, R193, R208) -/

theorem test_packet_commands :
    packetCommand .upper [0x00#8, 1#8] = .transactionPacket .upper [0x00#8, 1#8] ∧
      packetCommand .lower [0x81#8] = .init .lower [0x81#8] ∧
      packetCommand .lower [0x85#8] = .transactionPacket .lower [0x85#8] := by decide
theorem test_write_transactions :
    writeTransaction [] = none ∧ writeTransaction [0x01#8, 0#8] = some (.identify [0#8]) ∧
      writeTransaction [0x30#8] = some (.start []) ∧
      writeTransaction [0x41#8] = some (.unknownCommandCode 0x41#8 []) := by decide
theorem test_only_its_own_address_is_acknowledged :
    State.reset.acknowledges 0x70#8 = true ∧ State.reset.acknowledges 0x71#8 = true ∧
      State.reset.acknowledges 0x72#8 = false ∧ State.reset.acknowledges 0x00#8 = false := by decide

/-! ### Checks and formats (R208, chapter 11) -/

/-- The ASCII string 123456789. -/
def digits : List Byte := [0x31#8, 0x32#8, 0x33#8, 0x34#8, 0x35#8, 0x36#8, 0x37#8, 0x38#8, 0x39#8]

theorem test_crc32_check_value : crc32 digits = 0xCBF43926 := by decide +kernel
theorem test_crc16_check_value : crc16 digits = 0x29B1 := by decide +kernel
theorem test_damaged_byte_is_found : crc32Good (withCrc32 digits ++ [0#8]) = false := by decide +kernel
theorem test_init_with_training_kind_2_is_discarded :
    parseInit (withCrc16 [0x81#8, 2#8, 0#8, 0#8, 0#8, 0#8, 0#8]) = .discarded := by decide +kernel
theorem test_ack_of_wrong_size_is_damaged :
    parseAck (withCrc16 [0x82#8, 0#8]) = .damaged := by decide +kernel
theorem test_earlier_compares_by_difference :
    earlier 0xFFFFFFFF#32 3#32 = true ∧ earlier 3#32 0xFFFFFFFF#32 = false ∧
      earlier 0#32 0x80000000#32 = false ∧ earlier 0#32 0x7FFFFFFF#32 = true := by decide
theorem test_smallest_ring_is_1022_lines :
    JournalConfig.ring { base := 0#40, size := 65536, moduleSize := 0 } = 1022 := by decide
theorem test_no_word_spells_a_command : decodeTableWord 8 0x81 = none := by decide

/-! ### States the witnesses start from -/

/-- A port in an open session. -/
def upPort : Port := { Port.reset with state := .up }

/-- A port in training. -/
def trainingPort : Port := { Port.reset with state := .training, initSent := true, trainTimer := true }

/-- A port in retrain. -/
def retrainPort : Port := { Port.reset with state := .retrain, initSent := true, trainTimer := true }

/-- A journal of 64 KiB at 64 MiB in a module of 1 GiB. -/
def config : JournalConfig := { base := 0x4000000#40, size := 65536, moduleSize := 2 ^ 30 }

/-- A JOURNAL window of sixteen pages at 1 MiB, passing ungrouped writes. -/
def window : Window :=
  { valid := true, base := 0x100000#40, pages := 16, policy := .journal, ungrouped := .pass }

/-- UNCONFIGURED with both links UP. -/
def idleState : State := { State.reset with upper := upPort, lower := upPort }

/-- OPERATING with both links UP, credits advertised on both, and one window. -/
def opState : State :=
  { idleState with
    mode := .operating
    config := some config
    windows := window :: List.replicate 15 .empty
    serial := some 1#32
    journal := { Journal.reset with head := some 0#48, epoch := some 5#32 }
    ckpt := { Checkpoint.reset with tail := some 0#48, generation := some 1#32, slot := some 1 }
    credits :=
      { UpperCredits.reset with limit := Limits.zero.raise .capacity, pool := .zero, refresh := true }
    lowerCredits := { LowerCredits.zero with limit := { wh := 100#8, wd := 2000#12, rd := 100#8 } } }

/-- RECOVERING after START of a normal start. -/
def recState : State :=
  { idleState with
    mode := .recovering, config := some config, recovery := .started false 0#32 }

/-- HOLDUP with its budget timer running. -/
def holdState : State := { opState with mode := .holdup, budgetTimer := some 20 }

/-- HALTED with the lower link held DOWN. -/
def haltState : State :=
  { opState with mode := .halted, safeLine := true, lower := { Port.reset with heldDown := true } }

/-- SAFE. -/
def safeState : State := { opState with mode := .safe, safeLine := true }

/-- A state with a request at the head of the queue. -/
def withHead (s : State) (r : Request) : State := { s with queue := [.request r] }

/-- A request of stream 2 with no flag. -/
def request (kind : ReqKind) (addr : Addr) (length : Nat) : Request :=
  { kind := kind, tag := 5#6, addr := addr, length := length, group := false, close := false
    poison := false, stream := 2, count := 0, sig := 0#16, data := zeros (min length 64) }

/-- A received request packet. -/
def requestPacket (seq : Seq) (kind length attributes : Nat) (data : List Byte) : List Byte :=
  transactionBytes seq (requestHeader kind 5 0x100000#40 length attributes) data

/-- A received completion packet. -/
def answerPacket (seq : Seq) (tag status : Nat) (data : List Byte) : List Byte :=
  transactionBytes seq ([0x08#8, toByte tag, toByte status, toByte data.length] ++ zeros 8) data

/-- A tag's contents. -/
def info (owner : Owner) (purpose : Purpose) (ref : TagRef) : TagInfo :=
  { owner := owner, purpose := purpose, ref := ref, passCount := some 3#32, detached := false }

/-- A state in which lower tag 0 waits for its answer. -/
def awaiting (s : State) (i : TagInfo) : State :=
  { s with tags := .outstanding i :: List.replicate 31 .free }

/-- A closed group of one member on stream 2. -/
def group (state : GroupState) (serial : Num32) : Group :=
  { Group.fresh 2 with
    state := state, count := 1, sig := 0x4000#16, members := [0], serial := some serial
    closeIntake := some 0#32, start := some 0#48, lines := some 3 }

/-- A read record of a read. -/
def readRecord (state : ReadState) : ReadRecord :=
  { tag := 9#6, kind := .read 0x100000#40 16, intake := 0#32, orphan := false, state := state }

/-- A packet of the lower retry buffer. -/
def packet (seq : Seq) (acked resend : Bool) : LowerPacket :=
  { seq := seq, body := .write .inPlace 0x100000#40 (zeros 16) false, acked := acked, resend := resend }

/-- A packet of the upper retry buffer. -/
def completionPacket (seq : Seq) : UpperPacket :=
  { seq := seq, completion := { tag := 1#6, status := .ok, data := [] } }

/-- Limits an INIT or a CREDIT unit carries. -/
def limits : Limits := { wh := 255#8, wd := 4095#12, rd := 255#8 }

/-- What a command leaves. -/
def leaves (c : Instr) (s : State) : State :=
  match exec c s with
  | .next t => t
  | _ => s

theorem idle_stream (s : State) (h : s.streams = List.replicate 8 .idle) (i : Nat) :
    s.stream i = .idle := by
  simp only [State.stream, h, List.getD_eq_getElem?_getD, List.getElem?_replicate]
  split <;> rfl

theorem no_read (s : State) (h : s.reads = List.replicate 32 none) (i : Nat) : s.read? i = none := by
  simp only [State.read?, h, List.getD_eq_getElem?_getD, List.getElem?_replicate]
  split <;> rfl

theorem streams_good (s : State) (h : s.streams = List.replicate 8 .idle) (i : Nat) :
    s.streamGood i := by
  intro r hr
  rw [idle_stream s h] at hr
  cases hr

/-! ### Witnesses: resets, pins, events -/

theorem witness_event_end : opState.mode = .operating ∧ recState.mode ≠ .operating ∧
    holdState.mode = .holdup ∧ recState.mode ≠ .holdup ∧
    State.read? { opState with reads := [some (readRecord (.done
      { tag := 9#6, status := .ok, data := [] }))] } 0 ≠ none := by decide +kernel
theorem witness_pfw_by_mode : idleState.trained ∧ idleState.mode = .unconfigured ∧
    recState.trained ∧ recState.mode = .recovering ∧ safeState.trained ∧ safeState.mode = .safe ∧
    haltState.trained ∧ haltState.mode = .halted ∧ holdState.trained ∧ holdState.mode = .holdup := by
  decide +kernel
theorem witness_holdup_entry : opState.trained ∧ opState.mode = .operating ∧ opState.sized ∧
    ∀ i, opState.streamGood i :=
  ⟨by decide +kernel, by decide, by decide +kernel, streams_good opState rfl⟩

/-- A read and a write queued, the read in a session that has ended. -/
def queued (s : State) : State :=
  { s with
    queue := [.request (request .read 0x100000#40 16), .linkDownMarker
      , .request (request .write 0x100000#40 16), .request (request .read 0x100000#40 16)] }

theorem test_a_request_queued_at_the_end_of_holdup_is_discarded :
    let t := State.endEvent (queued holdState)
    t.mode = .safe ∧ t.faults.map FaultRecord.cause = [.holdupDone] ∧ t.queue = [] ∧
      t.formed = [.direct { tag := 5#6, status := .failed, data := [] }] ∧
      t.credits.pool = { wh := 1, wd := 1, rd := 2 } := by decide +kernel

/-! ### Witnesses: packets received -/

theorem witness_request_queued :
    let bytes := requestPacket 0#12 1 16 0 []
    let s := { opState with upper := { upPort with unacked := 6 } }
    s.calm ∧ s.upper.state = .up ∧ frameGood .upper bytes = true ∧ frameSeq bytes = s.upper.expRx ∧
      isCompletion bytes = false ∧ s.upper.unacked + 1 < 8 ∧
      (Request.charge (parseRequest bytes)).fits
        (unconsumed s.credits.limit s.credits.consumed) = true := by decide +kernel
theorem witness_credit_overrun :
    let bytes := requestPacket 0#12 2 16 0 (zeros 16)
    idleState.calm ∧ idleState.upper.state = .up ∧ frameGood .upper bytes = true ∧
      frameSeq bytes = idleState.upper.expRx ∧ isCompletion bytes = false ∧
      (Request.charge (parseRequest bytes)).fits
        (unconsumed idleState.credits.limit idleState.credits.consumed) = false := by decide +kernel
theorem witness_session_ends :
    parseInit (unitBytes (.init .train false limits)) = .good (.init .train false limits) ∧
      opState.calm ∧ opState.upper.state = .up ∧ opState.lower.state = .up ∧
      State.calm { opState with upper := retrainPort, lower := retrainPort } ∧
      retrainPort.trainTimer = true ∧ retrainPort.state = .retrain := by decide +kernel
theorem witness_unused_packet :
    let answer := answerPacket 0#12 31 0 []
    let request := requestPacket 0#12 3 0 0 []
    opState.calm ∧ upPort.state = .up ∧ frameGood .upper answer = true ∧
      frameGood .lower answer = true ∧ frameGood .lower request = true ∧
      frameSeq answer = upPort.expRx ∧ frameSeq request = upPort.expRx ∧
      isCompletion answer = true ∧ isCompletion request = false ∧
      opState.tag (completionTag answer) = .free ∧ upPort.unacked + 1 < 8 ∧
      State.calm { opState with upper := { upPort with unacked := 7 } } := by decide +kernel
theorem witness_unexpected_packet :
    let ahead := frameSeq (requestPacket 2047#12 1 16 0 [])
    let behind := frameSeq (requestPacket 2048#12 1 16 0 [])
    opState.calm ∧ frameGood .upper [0#8] = false ∧ upPort.nakOut = false ∧
      frameGood .upper (requestPacket 2048#12 1 16 0 []) = true ∧
      (ahead - upPort.expRx).toNat = 2047 ∧ (behind - upPort.expRx).toNat = 2048 ∧
      State.calm { opState with upper := { upPort with nakOut := true } } ∧
      State.calm { opState with upper := trainingPort } := by decide +kernel
theorem witness_units_not_good :
    parseInit (withCrc16 [0x81#8, 0#8, 2#8, 0#8, 0#8, 0#8, 0#8]) = .discarded ∧
      parseAck [0x82#8, 0#8, 0#8, 0#8, 0#8] = .discarded ∧
      parseNak [0x83#8, 0#8] = .damaged ∧ parseCredit [0x84#8] = .damaged ∧
      crc16Good [0x82#8, 0#8, 0#8, 0#8, 0#8] = false ∧ opState.calm ∧ opState.lower.nakOut = false ∧
      State.calm { opState with upper := { upPort with nakOut := true } } := by decide +kernel
theorem witness_read_answer :
    let bytes := answerPacket 0#12 0 0 (zeros 16)
    let i := info .read .read (.record 0)
    let s := { awaiting opState i with reads := some (readRecord (.issued 0)) :: List.replicate 31 none }
    s.calm ∧ s.lower.state = .up ∧ frameGood .lower bytes = true ∧ frameSeq bytes = s.lower.expRx ∧
      isCompletion bytes = true ∧ s.tag (completionTag bytes) = .outstanding i ∧ i.purpose = .read ∧
      i.ref = .record 0 ∧ i.detached = false ∧ s.mode ≠ .safe ∧ s.mode ≠ .halted ∧
      s.read? 0 = some (readRecord (.issued 0)) ∧ (readRecord (.issued 0)).orphan = false ∧
      (readRecord (.issued 0)).kind = .read 0x100000#40 16 ∧
      State.calm { s with
        reads := some { readRecord (.issued 0) with orphan := true } :: List.replicate 31 none } := by
  decide +kernel

/-- A state with these groups in records 0 and 1. -/
def pair (s : State) (a b : Group) : State :=
  { s with groups := some a :: some b :: List.replicate 14 none }

/-- A state with groups of serials 1 and 2 in records 0 and 1. -/
def twoGroups (s : State) (first second : GroupState) : State :=
  pair s (group first 1#32) (group second 2#32)

theorem pair_groups (s : State) (a b : Group) (r : Nat) (g : Group)
    (h : (pair s a b).group? r = some g) : (r = 0 ∧ g = a) ∨ r = 1 ∧ g = b := by
  rcases r with _ | _ | r
  · exact .inl ⟨rfl, (Option.some.inj h).symm⟩
  · exact .inr ⟨rfl, (Option.some.inj h).symm⟩
  · simp only [State.group?, pair, List.getD_eq_getElem?_getD, List.getElem?_cons_succ,
      List.getElem?_replicate] at h
    split at h <;> cases h

theorem witness_group_fence_ok :
    let bytes := answerPacket 0#12 0 0 []
    let i := info .journal .groupFence (.serial 2#32)
    let s := awaiting (twoGroups opState .committed .committing) i
    s.calm ∧ s.lower.state = .up ∧ frameGood .lower bytes = true ∧ frameSeq bytes = s.lower.expRx ∧
      isCompletion bytes = true ∧ s.tag (completionTag bytes) = .outstanding i ∧
      i.passCount = some 3#32 ∧ i.detached = false ∧ s.mode = .operating ∧
      (parseAnswer bytes).status = .ok ∧ s.group? 1 = some (group .committing 2#32) ∧
      (group .committing 2#32).state = .committing := by decide +kernel
theorem witness_group_fence_serial_is_single (r : Nat) (g : Group)
    (h : (twoGroups opState .committed .committing).group? r = some g) (hs : g.serial = some 2#32) :
    r = 1 := by
  rcases pair_groups _ _ _ r g h with ⟨_, rfl⟩ | ⟨rfl, _⟩
  · cases hs
  · rfl
theorem witness_group_fence_waits :
    (twoGroups opState .journaling .committing).group? 0 = some (group .journaling 1#32) ∧
      earlier 1#32 2#32 = true := by decide +kernel

/-- The group of serial 2, fence-complete behind the one of serial 1. -/
def follower : Group := { group .committing 2#32 with fenceComplete := true }

theorem witness_follower :
    (pair opState (group .committing 1#32) follower).group? 1 = some follower ∧
      follower.serial = some 2#32 ∧ follower.state = .committing ∧ follower.fenceComplete = true := by
  decide +kernel
theorem witness_follower_waits_for_its_fence_only (q : Nat) (h : Group) (k : Num32)
    (hq : (pair opState (group .committing 1#32) follower).group? q = some h)
    (hk : h.serial = some k) :
    (k - 0#32).toNat < 2 ^ 31 ∧ (earlier k 1#32 = true → h.state = .committed) ∧
      (earlier k 2#32 = true → q = 0) := by
  rcases pair_groups _ _ _ q h hq with ⟨rfl, rfl⟩ | ⟨rfl, rfl⟩ <;> cases hk <;> decide
theorem test_a_fence_complete_group_follows :
    let s := awaiting (pair opState (group .committing 1#32) follower)
      (info .journal .groupFence (.serial 1#32))
    let t := leaves (.transactionPacket .lower (answerPacket 0#12 0 0 [])) s
    (t.group? 0).map Group.state = some .committed ∧
      t.group? 1 = some { follower with state := .committed } := by decide +kernel

/-- A checkpoint in flight over the group of serial 1. -/
def flight (phase : CkptPhase) : CkptFlight :=
  { firstSerial := 1#32, lastSerial := 1#32, newTail := 3#48, newNextSerial := 2#32, phase := phase
    sentA := false, sentAnchor := false, sentB := false }

/-- Groups of serials 1, covered by a checkpoint, and 2, whose reservation waits for space. -/
def retiring (phase : CkptPhase) : State :=
  { twoGroups opState .applied .closed with
    ckpt := { opState.ckpt with flight := some (flight phase) }
    journal := { opState.journal with head := some 1020#48, queue := [1], spaceWait := true } }

theorem witness_checkpoint_fences :
    let bytes := answerPacket 0#12 0 0 []
    let a := info .checkpoint .fenceA .none
    let b := info .checkpoint .fenceB .none
    State.Answered (awaiting (retiring .fenceA) a) bytes a ∧
      State.Answered (awaiting (retiring .fenceB) b) bytes b ∧ a.passCount = some 3#32 ∧
      (parseAnswer bytes).status = .ok ∧ (retiring .fenceB).ckpt.flight = some (flight .fenceB) ∧
      (retiring .fenceB).ckpt.generation = some 1#32 ∧ (retiring .fenceB).mode = .operating ∧
      (retiring .fenceB).journal.spaceWait = true ∧ (retiring .fenceB).config = some config ∧
      (retiring .fenceB).journal.queue = 1 :: [] ∧ (retiring .fenceB).journal.current = none ∧
      (retiring .fenceB).journal.head = some 1020#48 ∧
      (retiring .fenceB).group? 1 = some (group .closed 2#32) ∧
      earlier (flight .fenceB).lastSerial 2#32 = true := by decide +kernel
open Classical in
theorem witness_covered_groups (s : State) (f : CkptFlight) :
    ∃ (covered : Nat → Group → Prop) (freed : Entry → Bool),
      (∀ r g, covered r g ↔ s.group? r = some g ∧ ∃ n, g.serial = some n ∧
        earlier n f.firstSerial = false ∧ earlier f.lastSerial n = false) ∧
      ∀ e, freed e = true ↔ ∃ r i st g, e.kind = .member r i st ∧ covered r g :=
  ⟨_, fun _ => decide _, fun _ _ => Iff.rfl, fun _ => decide_eq_true_iff⟩
theorem witness_fence_error :
    let bytes := answerPacket 0#12 0 7 []
    let i := info .journal .groupFence (.serial 1#32)
    let s := awaiting opState i
    let h := awaiting holdState (info .checkpoint .fenceB .none)
    s.calm ∧ s.lower.state = .up ∧ frameGood .lower bytes = true ∧ frameSeq bytes = s.lower.expRx ∧
      isCompletion bytes = true ∧ s.tag (completionTag bytes) = .outstanding i ∧ i.detached = false ∧
      (parseAnswer bytes).status ≠ .ok ∧ s.mode = .operating ∧ h.calm ∧ h.lower.state = .up ∧
      h.mode = .holdup ∧ h.tag 0 = .outstanding (info .checkpoint .fenceB .none) := by decide +kernel

/-! ### Witnesses: training and sessions -/

theorem witness_train_init :
    let bytes := unitBytes (.init .train true limits)
    let s := { opState with upper := trainingPort, lower := trainingPort }
    s.calm ∧ parseInit bytes = .good (.init .train true limits) ∧ s.upper.state = .training ∧
      s.upper.initSent = true ∧ s.lower.state = .training ∧ s.lower.initSent = true ∧
      ∀ p ∈ s.lowerRetry, p.resend = false := by decide +kernel

/-- A lower link with two packets marked for re-send. -/
def marked (s : State) (p : Port) : State :=
  { s with lower := p, lowerRetry := [packet 3#12 false true, packet 4#12 false true] }

/-- Limits with one WH. -/
def oneWrite : Limits := { limits with wh := 1#8, wd := 100#12 }

theorem witness_resend :
    (marked opState trainingPort).calm ∧ (marked safeState trainingPort).calm ∧
      parseInit (unitBytes (.init .train true oneWrite)) = .good (.init .train true oneWrite) ∧
      trainingPort.state = .training ∧ trainingPort.initSent = true ∧
      parseCredit (unitBytes (.credit oneWrite)) = .good (.credit oneWrite) ∧
      (marked opState upPort).calm ∧ (marked safeState upPort).calm := by decide +kernel
theorem test_resend_stops_for_want_of_credit :
    let t := (marked opState trainingPort).handleInit .lower .train true oneWrite
    let u := t.handleCredit .lower { limits with wh := 2#8, wd := 100#12 }
    t.lowerRetry = [packet 0#12 false false, packet 4#12 false true] ∧ t.lower.nextTx = 1#12 ∧
      t.lowerCredits = { limit := oneWrite, consumed := { wh := 1#8, wd := 1#12, rd := 0#8 } } ∧
      u.lowerRetry = [packet 0#12 false false, packet 1#12 false false] ∧ u.lower.nextTx = 2#12 := by
  decide +kernel
theorem witness_other_inits :
    let retrain := unitBytes (.init .retrain false limits)
    let reply := unitBytes (.init .train true limits)
    opState.calm ∧ parseInit retrain = .good (.init .retrain false limits) ∧
      parseInit reply = .good (.init .train true limits) ∧ opState.upper.state = .up ∧
      State.calm { opState with upper := trainingPort } ∧
      State.calm { opState with upper := retrainPort, lower := retrainPort } ∧
      retrainPort.state = .retrain ∧ retrainPort.initSent = true ∧ opState.lower.state = .up ∧
      ∀ p ∈ opState.lowerRetry, p.resend = false := by decide +kernel

/-! ### Witnesses: acknowledgement, replay, timers, credits -/

theorem witness_ack_upper :
    let s := { opState with upperRetry := [completionPacket 7#12, completionPacket 8#12] }
    s.calm ∧ parseAck (unitBytes (.ack 8#12)) = .good (.ack 8#12) ∧ s.upper.state = .up ∧
      s.upperRetry = [completionPacket 7#12] ++ completionPacket 8#12 :: [] ∧
      (∀ q ∈ [completionPacket 7#12], q.seq ≠ 8#12) ∧ 7#12 ≠ 8#12 + 1#12 ∧
      s.upperRetry.head? = some (completionPacket 7#12) ∧ 9#12 ∉ s.unackedSeqs .upper := by
  decide +kernel
theorem witness_ack_lower :
    let s := { opState with lowerRetry := [packet 7#12 false false, packet 8#12 false false] }
    s.calm ∧ parseAck (unitBytes (.ack 7#12)) = .good (.ack 7#12) ∧ s.lower.state = .up ∧
      s.lowerRetry = [] ++ packet 7#12 false false :: [packet 8#12 false false] ∧
      (packet 7#12 false false).live = true ∧
      (s.lowerRetry.filter LowerPacket.live).head? = some (packet 7#12 false false) := by
  decide +kernel
theorem witness_replay :
    let s := { opState with
      upper := { upPort with replayTimer := true, replayCount := 2 }
      upperRetry := [completionPacket 7#12] }
    s.calm ∧ s.upper.state = .up ∧ s.unackedSeqs .upper = 7#12 :: [] ∧
      parseNak (unitBytes (.nak 6#12)) = .good (.nak 6#12) ∧ 6#12 + 1#12 = 7#12 ∧
      s.upper.replayTimer = true ∧ s.upper.replayCount < 3 ∧
      State.calm { s with upper := { upPort with replayTimer := true, replayCount := 3 } } := by
  decide +kernel
theorem witness_nak_acknowledges :
    let s := { opState with
      upperRetry := [completionPacket 7#12, completionPacket 8#12]
      lowerRetry := [packet 7#12 false false, packet 8#12 false false] }
    s.calm ∧ parseNak (unitBytes (.nak 7#12)) = .good (.nak 7#12) ∧ s.upper.state = .up ∧
      s.upperRetry = [] ++ completionPacket 7#12 :: [completionPacket 8#12] ∧
      s.lowerRetry = [] ++ packet 7#12 false false :: [packet 8#12 false false] ∧
      (packet 7#12 false false).live = true ∧ 7#12 ≠ 7#12 + 1#12 ∧
      State.calm { s with upper := retrainPort, lower := retrainPort } := by decide +kernel
theorem witness_port_timers :
    let s := { opState with upper := { upPort with ackTimer := true }, lower := trainingPort }
    s.calm ∧ s.upper.ackTimer = true ∧ s.lower.trainTimer = true ∧ s.lower.state = .training ∧
      s.lower.ackTimer = false ∧ s.upper.trainTimer = false ∧ s.upper.replayTimer = false := by
  decide +kernel
theorem witness_credit_unit :
    opState.calm ∧ parseCredit (unitBytes (.credit limits)) = .good (.credit limits) ∧
      opState.lower.state = .up ∧ (∀ p ∈ opState.lowerRetry, p.resend = false) ∧
      State.calm { opState with lower := trainingPort } ∧
      State.calm { opState with lower := retrainPort } ∧ (marked safeState upPort).calm := by
  decide +kernel
theorem witness_credit_sent :
    let s := { opState with credits := { opState.credits with due := true } }
    s.calm ∧ s.credits.due = true ∧ s.credits.refresh = true ∧ s.upper.state = .up ∧
      State.calm { s with upper := retrainPort } := by decide +kernel
theorem witness_hold_timer :
    let run := fun s : State => { s with holdTimer := some 100 }
    (run idleState).calm ∧ (run idleState).mode = .unconfigured ∧ (run safeState).calm ∧
      (run holdState).calm ∧ (run holdState).mode = .holdup ∧ (run opState).calm ∧
      (run recState).calm ∧ (run recState).mode = .recovering := by decide +kernel
theorem witness_budget : holdState.calm ∧ holdState.budgetTimer.isSome = true ∧
    holdState.mode = .holdup := by decide +kernel
theorem witness_lowest_uncommitted :
    (twoGroups holdState .journaling .closed).uncommittedGroups =
      [(0, group .journaling 1#32), (1, group .closed 2#32)] := by decide +kernel
theorem witness_serials_lie_close (q : Nat) (h : Group) (k : Num32)
    (hq : (twoGroups holdState .journaling .closed).group? q = some h) (hk : h.serial = some k) :
    (k - 0#32).toNat < 2 ^ 31 := by
  rcases pair_groups _ _ _ q h hq with ⟨rfl, rfl⟩ | ⟨rfl, rfl⟩ <;> cases hk <;> decide

/-! ### Witnesses: the management port -/

theorem witness_management_calm : idleState.calm ∧ opState.calm ∧ haltState.calm ∧ safeState.calm ∧
    idleState.sized := by decide +kernel
theorem witness_bad_forms :
    ([] : List Byte) = [] ∧ (([0#8, 1#8] : List Byte).headD 0#8).toNat ≠ 1 ∧
      ([4#8, 0#8, 0#8, 0#8, 0#8] : List Byte).length - 1 ≠ 5 := by decide
theorem test_identify_form_refuses_a_parameter : formGood 0 [1#8, 0#8] = false := by decide

/-- SET JOURNAL parameters. -/
def journalBytes (base size moduleSize : Nat) : List Byte :=
  leBytes 5 base ++ leBytes 4 size ++ leBytes 6 moduleSize

theorem witness_set_journal :
    (journalBytes 0x4000000 65536 (2 ^ 30)).length = 15 ∧
      journalParams (journalBytes 0x4000000 65536 (2 ^ 30)) = config ∧ config.valuesGood = true ∧
      idleState.mode = .unconfigured ∧
      (journalParams (journalBytes 0x4000040 65536 (2 ^ 30))).valuesGood = false ∧
      window.meets 0x100000 65536 = true ∧ opState.mode ≠ .unconfigured := by decide +kernel
theorem test_largest_journal_is_accepted :
    JournalConfig.valuesGood { base := 0#40, size := 2 ^ 24, moduleSize := 2 ^ 40 } = true ∧
      JournalConfig.valuesGood { base := 0#40, size := 2 ^ 25, moduleSize := 2 ^ 40 } = false ∧
      JournalConfig.valuesGood { base := 0#40, size := 2 ^ 15, moduleSize := 2 ^ 40 } = false := by
  decide +kernel
theorem test_parameter_bounds :
    paramsGood [8#8, 0xE8#8, 3#8, 255#8, 1#8] =
        some { batch := 8, holdTime := 1000, budget := 255, default := .deny } ∧
      paramsGood [9#8, 0xE8#8, 3#8, 255#8, 1#8] = none ∧
      paramsGood [8#8, 0xE9#8, 3#8, 255#8, 1#8] = none ∧
      paramsGood [1#8, 1#8, 0#8, 1#8, 2#8] = none := by decide
theorem witness_entries :
    idleState.pendingEntry = none ∧ opState.windows[0]? = some window ∧ window.pages < 2 ^ 32 ∧
      (15#8).toNat ≤ 15 ∧ 15 < (16#8).toNat ∧ opState.windows[15]? = some Window.empty ∧
      Window.empty.pages < 2 ^ 32 ∧
      State.calm { opState with pendingEntry := some (pendingOf 3#8 [1#8]) } := by decide +kernel

/-- A pending entry for table entry 3: a READONLY window of one page at 2 MiB. -/
def entry : PendingEntry := pendingOf 3#8 (windowBytes
  { valid := true, base := 0x200000#40, pages := 1, policy := .readonly, ungrouped := .pass })

/-- OPERATING with a pending entry. -/
def pendingState (e : PendingEntry) : State := { opState with pendingEntry := some e }

theorem witness_commit_refusals :
    (pendingState entry).calm ∧ (pendingState entry).mode ≠ .halted ∧
      (pendingState entry).mode ≠ .safe ∧ (pendingState entry).pendingEntry = some entry ∧
      opState.pendingEntry = none ∧ (pendingOf 3#8 [1#8]).short = true ∧
      15 < (pendingOf 16#8 []).index.toNat ∧ haltState.calm ∧ safeState.calm ∧
      entryPages (pendingOf 3#8 ([1#8] ++ zeros 9)).bytes = 0 ∧
      entryValid (pendingOf 3#8 ([1#8] ++ zeros 9)).bytes = true := by decide +kernel
theorem witness_commit :
    entry.short = false ∧ entry.index.toNat ≤ 15 ∧ entryValid entry.bytes = true ∧
      (pendingState entry).entryFields entry.bytes = some
        { valid := true, base := 0x200000#40, pages := 1, policy := .readonly, ungrouped := .pass } ∧
      entryValid (pendingOf 15#8 (zeros 10)).bytes = false ∧
      (pendingOf 15#8 (zeros 10)).short = false := by decide +kernel
theorem witness_commit_conflict :
    window.valid = true ∧ (window.base.toNat ≤ 0x100000 ∧ 0x100000 < window.base.toNat + 16 * 4096) ∧
      (pendingState entry).windows[0]? = some window := by decide +kernel
theorem witness_start :
    State.calm { idleState with config := some config } ∧
      ({ idleState with config := some config } : State).mode = .unconfigured ∧
      1 < (2#8).toNat ∧ (1#8).toNat ≤ 1 ∧ idleState.config = none := by decide +kernel
theorem witness_read_fault :
    State.calm (opState.appendFault .malformed {}) ∧ (opState.appendFault .malformed {}).faults ≠ [] ∧
      opState.faults = [] := by decide +kernel

/-! ### Witnesses: the classifier, the group unit, the read unit -/

theorem witness_verdicts :
    opState.verdict 0x100000#40 = .window .journal .pass ∧
      opState.verdict 0x10FFFF#40 = .window .journal .pass ∧
      opState.verdict 0x110000#40 = .default .deny ∧ opState.verdict 0x4000000#40 = .journalRegion ∧
      opState.verdict 0x400FFFF#40 = .journalRegion ∧ opState.verdict 0x4010000#40 = .default .deny ∧
      opState.verdict 0x40000000#40 = .beyond ∧ opState.verdict 0x3FFFFFFF#40 = .default .deny := by
  decide +kernel
theorem witness_plain_write :
    let s := withHead opState (request .write 0x100000#40 64)
    s.calm ∧ s.mode = .operating ∧ s.horizonHold = false ∧
      s.queue = .request (request .write 0x100000#40 64) :: [] ∧
      s.verdict 0x100000#40 = .window .journal .pass ∧ (0x100000#40).toNat % 64 + 64 ≤ 64 ∧
      (withHead opState (request .write 0x110000#40 1)).horizonHold = false ∧
      opState.verdict 0x110000#40 = .default .deny := by decide +kernel
theorem witness_malformed :
    let r := request .write 0x10003F#40 2
    (withHead opState r).calm ∧ (withHead opState r).horizonHold = false ∧
      (withHead opState r).recordHold r = false ∧ 64 < r.addr.toNat % 64 + r.length ∧
      (withHead opState (request (.reserved 3#8) 0#40 65)).calm := by decide +kernel
theorem witness_zero_length :
    let close := { request .write 0#40 0 with group := true, close := true, count := 64 }
    (withHead opState close).calm ∧ (withHead opState close).horizonHold = false ∧
      close.count ≤ 64 ∧ (opState.stream 2).group = none ∧
      (withHead opState (request .write 0#40 0)).horizonHold = false := by decide +kernel

/-- OPERATING with an OPEN group of one member on stream 2, in record 0. -/
def openState : State :=
  { opState with
    groups := some { Group.fresh 2 with count := 1, sig := 0x4000#16, members := [0] } ::
      List.replicate 15 none
    streams := opState.streams.set 2 { StreamState.idle with group := some 0 } }

/-- A group write on stream 2. -/
def groupWrite : Request := { request .write 0x100040#40 16 with group := true }

theorem witness_group_write :
    (withHead openState groupWrite).calm ∧ (withHead openState groupWrite).horizonHold = false ∧
      (openState.stream 2).group = some 0 ∧ (openState.group? 0).isSome = true ∧
      openState.verdict groupWrite.addr = .window .journal .pass ∧
      (openState.group? 0).map Group.fault = some none ∧
      (withHead opState groupWrite).horizonHold = false ∧ (opState.stream 2).group = none ∧
      opState.groups[0]? = some none ∧ openState.verdict 0x110000#40 = .default .deny := by
  decide +kernel
theorem witness_faulted_opening :
    let stray := { groupWrite with addr := 0x110000#40 }
    let poisoned := { groupWrite with poison := true }
    (withHead opState stray).calm ∧ (withHead opState stray).horizonHold = false ∧
      opState.verdict stray.addr = .default .deny ∧ (withHead opState poisoned).calm ∧
      (withHead opState poisoned).horizonHold = false ∧ opState.groups[0]? = some none := by
  decide +kernel
theorem witness_close_with_data :
    let joins := { groupWrite with close := true, count := 2, sig := 0x8001#16 }
    let opens := { groupWrite with close := true, count := 1, sig := 0x4001#16 }
    (withHead openState joins).calm ∧ (withHead openState joins).horizonHold = false ∧
      (openState.group? 0).map Group.stream = some 2 ∧ joins.stream < openState.streams.length ∧
      (openState.group? 0).map (fun g => (g.count + 1, g.sig + BitVec.ofNat 16 (lineOf joins.addr))) =
        some (joins.count, joins.sig) ∧
      (withHead opState opens).calm ∧ (withHead opState opens).horizonHold = false ∧
      (opState.stream 2).group = none ∧ opState.groups[0]? = some none ∧
      openState.serial = some 1#32 := by decide +kernel
theorem witness_close :
    let close := { request .write 0#40 0 with
      group := true, close := true, count := 1, sig := 0x4000#16 }
    let s := withHead openState close
    s.calm ∧ s.mode = .operating ∧ s.horizonHold = false ∧ close.count ≤ 64 ∧
      (s.stream 2).group = some 0 ∧ (s.group? 0).map Group.stream = some 2 ∧
      (s.group? 0).map Group.count = some 1 ∧ (s.group? 0).map Group.sig = some 0x4000#16 ∧
      s.serial = some 1#32 := by decide +kernel
theorem witness_read_taken :
    let s := withHead opState (request .read 0x100000#40 16)
    s.calm ∧ s.mode = .operating ∧ s.horizonHold = false ∧ s.reads[0]? = some none ∧
      s.duplicateTag 5#6 = false ∧ (request .read 0x100000#40 16).readMalformed = false ∧
      (s.verdict 0x100000#40).allowsRead = true ∧ .linkDownMarker ∉ ([] : List QueueItem) ∧
      (withHead haltState (request .read 0x100000#40 16)).calm ∧
      (request .read 0x10003F#40 2).readMalformed = true ∧
      s.verdict 0x40000000#40 = .beyond := by decide +kernel
theorem test_a_read_with_a_marker_behind_it_is_an_orphan :
    let behind := fun (s : State) (r : Request) => { s with queue := [.request r, .linkDownMarker] }
    let held := leaves .takeRequest (behind opState (request .read 0x100000#40 16))
    let denied := leaves .takeRequest (behind opState (request .read 0x40000000#40 16))
    (behind opState (request .read 0x100000#40 16)).calm ∧
      (held.read? 0).map ReadRecord.orphan = some true ∧ denied.read? 0 = none ∧
      denied.formed = [] ∧ denied.credits.limit.rd = opState.credits.limit.rd + 1#8 := by
  decide +kernel
theorem witness_flush :
    let s := withHead opState (request .read 0#40 0)
    s.calm ∧ s.mode = .operating ∧ s.sized ∧ s.horizonHold = false ∧ s.reads[0]? = some none ∧
      s.staging.entries = [] ∧ s.marks.durable = s.marks.passSend := by decide +kernel
theorem witness_flush_finds_no_record (k : Nat) :
    (withHead opState (request .read 0#40 0)).read? k = none := no_read _ rfl k

/-- A WAITING flush with serial bound 3. -/
def flush (kind : ReadKind) (intake : Num32) (orphan : Bool) : ReadRecord :=
  { tag := 9#6, kind := kind, intake := intake, orphan := orphan, state := .waiting }

/-- OPERATING with two WAITING flushes in records 0 and 1. -/
def flushing (first second : ReadRecord) : State :=
  { opState with reads := some first :: some second :: List.replicate 30 none }

theorem witness_waiting_flushes :
    let one := flush (.streamFlush 2 (some 3#32) none) 0#32 false
    let two := flush (.streamFlush 2 (some 3#32) none) 1#32 false
    let all := flush (.globalFlush (some 3#32) none) 1#32 true
    (flushing one two).mode = .operating ∧ (flushing one two).read? 0 = some one ∧
      (flushing one two).read? 1 = some two ∧ earlier one.intake two.intake = true ∧
      2 < (flushing one two).streams.length ∧ (flushing one all).read? 1 = some all ∧
      (flushing one all).marks.durable = (flushing one all).marks.passSend ∧
      ((flushing one all).stream 2).discards ≤ 255 := by decide +kernel
theorem witness_waiting_flushes_are_the_only_reads (a b : ReadRecord) (q : Nat) (h0 : q ≠ 0)
    (h1 : q ≠ 1) : (flushing a b).read? q = none := by
  rcases q with _ | _ | q
  · exact absurd rfl h0
  · exact absurd rfl h1
  · simp only [State.read?, flushing, List.getD_eq_getElem?_getD, List.getElem?_cons_succ,
      List.getElem?_replicate]
    split <;> rfl
theorem witness_flush_groups_safe (a b : ReadRecord) (p : Nat → Prop) (bound : Option Num32) :
    (flushing a b).FlushGroupsSafe p bound := by
  intro r g n c hg
  simp only [State.group?, flushing, opState, idleState, State.reset,
    List.getD_eq_getElem?_getD, List.getElem?_replicate] at hg
  split at hg <;> cases hg
theorem witness_flush_not_met :
    (twoGroups opState .journaling .closed).group? 0 = some (group .journaling 1#32) ∧
      earlier 1#32 3#32 = true ∧ (group .journaling 1#32).stream = 2 := by decide +kernel
theorem witness_holds :
    let full := { withHead opState groupWrite with groups := List.replicate 16 (some (.fresh 0)) }
    let far := { withHead opState groupWrite with
      intake := 0x40000000#32, reads := some (readRecord .held) :: List.replicate 31 none }
    full.calm ∧ (full.stream 2).group = none ∧ (∀ o ∈ full.groups, o ≠ none) ∧ far.calm ∧
      far.horizon = some 0#32 ∧ 2 ^ 30 ≤ (far.intake - 0#32).toNat ∧
      (withHead recState groupWrite).calm := by decide +kernel
theorem witness_holdup_and_halted :
    (withHead holdState (request .read 0#40 0)).calm ∧ holdState.upper.state = .up ∧
      (withHead holdState groupWrite).calm ∧ (withHead haltState groupWrite).calm := by decide +kernel
theorem witness_marker :
    let s := { openState with queue := [.linkDownMarker] }
    s.calm ∧ s.mode = .operating ∧ s.sized ∧ (s.stream 2).group = some 0 ∧
      State.calm { holdState with queue := [.linkDownMarker] } ∧
      State.calm { haltState with queue := [.linkDownMarker] } := by decide +kernel
theorem witness_marker_streams_good (i : Nat) : openState.streamGood i := by
  intro r hr
  by_cases hi : i = 2
  · subst hi
    obtain rfl : 0 = r := Option.some.inj hr
    exact ⟨_, rfl, rfl, rfl⟩
  · have : openState.stream i = .idle := by
      simp only [State.stream, openState, List.getD_eq_getElem?_getD]
      rw [List.getElem?_set_ne (Ne.symm hi)]
      exact idle_stream opState rfl i
    rw [this] at hr
    cases hr

/-! ### Witnesses: the lower side, completions, recovery -/

/-- OPERATING with one PASS entry staged. -/
def passState : State :=
  opState.stage
    { intake := 0#32, addr := 0x100000#40, length := 16, data := zeros 16, kind := .pass .waiting
      poison := false }

theorem witness_grant :
    passState.calm ∧ passState.lower.state = .up ∧ (∀ p ∈ passState.lowerRetry, p.resend = false) ∧
      passState.lowerRetry.length < 64 ∧ passState.claims = .none ∧ passState.robin = 0 ∧
      Source.circle.rotateLeft 0 = [] ++ .passDrain :: Source.circle.tail ∧
      passState.offer .passDrain = some (offerWrite .inPlace 0x100000#40 (zeros 16) false) ∧
      Amount.fits { wh := 1, wd := 1, rd := 0 } passState.lowerAvailable = true ∧
      (passState.staging.entries.map passState.sendable) = [true] := by decide +kernel
theorem witness_read_grant :
    let s := { opState with robin := 4, reads := some (readRecord .held) :: List.replicate 31 none }
    s.calm ∧ s.readyRead = some 0 ∧ s.read? 0 = some (readRecord .held) ∧ s.freeTag = some 0 ∧
      Amount.fits { wh := 0, wd := 0, rd := 1 } s.lowerAvailable = true := by decide +kernel

theorem witness_barred_by_a_claim :
    let s := { passState with
      claims := { Claims.none with wd := some .journal }
      reads := some { readRecord .held with kind := .read 0x200000#40 16 } :: List.replicate 31 none }
    s.calm ∧ s.robin = 0 ∧
      Source.circle.rotateLeft 0 =
        [.passDrain, .journal, .apply, .checkpoint] ++ .readIssue :: [.flushFence, .recovery] ∧
      s.offer .passDrain = some (offerWrite .inPlace 0x100000#40 (zeros 16) false) ∧
      (∀ b ∈ [Source.journal, .apply, .checkpoint], s.offer b = none) ∧
      (s.offer .readIssue).map (fun o => o.body.charge) = some { wh := 0, wd := 0, rd := 1 } ∧
      Amount.fits { wh := 1, wd := 1, rd := 0 } s.lowerAvailable = true := by decide +kernel
theorem witness_claim_bars_its_kind :
    let c : Claims := { Claims.none with wd := some .journal }
    c.HeldAgainst .passDrain { wh := 1, wd := 1, rd := 0 } ∧
      ¬c.HeldAgainst .readIssue { wh := 0, wd := 0, rd := 1 } := by
  simp [Claims.HeldAgainst, Claims.none]
theorem witness_claim_taken :
    let s := { passState with
      lowerCredits := { LowerCredits.zero with limit := { wh := 100#8, wd := 0#12, rd := 100#8 } }
      reads := some { readRecord .held with kind := .read 0x200000#40 16 } :: List.replicate 31 none }
    s.calm ∧ Source.circle.rotateLeft s.robin = [] ++ .passDrain :: Source.circle.tail ∧
      s.offer .passDrain = some (offerWrite .inPlace 0x100000#40 (zeros 16) false) ∧
      Amount.fits { wh := 1, wd := 1, rd := 0 } s.lowerAvailable = false ∧
      Source.circle.tail =
        [.journal, .apply, .checkpoint] ++ .readIssue :: [.flushFence, .recovery] ∧
      (∀ b ∈ [Source.journal, .apply, .checkpoint], s.offer b = none) ∧
      (s.offer .readIssue).isSome = true ∧
      Amount.fits { wh := 0, wd := 0, rd := 1 } s.lowerAvailable = true ∧
      ∀ b ∈ Source.circle.tail, State.offer { s with reads := List.replicate 32 none } b = none := by
  decide +kernel
/-- OPERATING with a group of one member, its data staged. -/
def memberState (state : GroupState) : State :=
  { twoGroups opState state .closed with
    staging :=
      { entries := [{ intake := 0#32, addr := 0x100000#40, length := 16, data := zeros 16
                      kind := .member 0 0 .held, poison := false }]
        freeEntries := 127, freeUnits := 255 } }

/-- The arbiter grants from a position, as a Bool. -/
def grantsFrom (s : State) (n : Nat) : Bool := decide (s.GrantsFrom n)

/-- JOURNAL examined first, its current group in a phase. -/
def journalAt (phase : JournalPhase) : State :=
  { memberState .journaling with
    robin := 1
    journal := { opState.journal with current := some { record := 0, phase := phase } } }

/-- CHECKPOINT examined first, a checkpoint in flight in a phase. -/
def checkpointAt (phase : CkptPhase) : State :=
  { opState with robin := 3, ckpt := { opState.ckpt with flight := some (flight phase) } }

theorem witness_anchor_grant :
    (checkpointAt .anchor).calm ∧ (checkpointAt .anchor).ckpt.flight = some (flight .anchor) ∧
      (checkpointAt .anchor).config = some config ∧
      (checkpointAt .anchor).journal.epoch = some 5#32 ∧
      (checkpointAt .anchor).ckpt.generation = some 1#32 ∧
      Amount.fits { wh := 1, wd := 4, rd := 0 } (checkpointAt .anchor).lowerAvailable = true := by
  decide +kernel
theorem witness_journal_grants :
    grantsFrom (journalAt (.body 1)) 1 ∧ grantsFrom (journalAt .commitLine) 1 ∧
      grantsFrom (journalAt .fence) 1 ∧ grantsFrom { journalAt .fence with mode := .holdup } 1 ∧
      (journalAt .fence).group? 0 = some (group .journaling 1#32) ∧
      (group .journaling 1#32).members[1 / 2]? = some 0 ∧
      ((journalAt (.body 1)).member? 0 0).isSome = true ∧ (journalAt .fence).freeTag = some 0 ∧
      (journalAt .fence).config = some config ∧ (journalAt .fence).journal.epoch = some 5#32 ∧
      Amount.fits { wh := 1, wd := 4, rd := 0 } (journalAt .fence).lowerAvailable = true := by
  decide +kernel
theorem witness_apply_grant :
    let s := { memberState .applying with robin := 2, apply := some { record := 0, next := 0 } }
    let barred := { s with
      groups := some { group .applying 1#32 with closeIntake := some 1#32 } :: List.replicate 15 none
      reads := some (readRecord .held) :: List.replicate 31 none }
    grantsFrom s 2 ∧ s.mode = .operating ∧ s.group? 0 = some (group .applying 1#32) ∧
      (group .applying 1#32).members[0]? = some 0 ∧ (s.member? 0 0).isSome = true ∧
      (group .applying 1#32).closeIntake = some 0#32 ∧ s.offer .apply ≠ none ∧
      Amount.fits { wh := 1, wd := 1, rd := 0 } s.lowerAvailable = true ∧ grantsFrom barred 2 ∧
      barred.offer .apply = none := by decide +kernel
theorem witness_fence_grants :
    let waits := { flushing (flush (.globalFlush none (some 1#32)) 0#32 false)
        (flush (.globalFlush none none) 1#32 false) with robin := 5 }
    let final := { holdState with hold := { HoldWork.outstanding with target := some 1#32 } }
    grantsFrom (checkpointAt .fenceA) 3 ∧ grantsFrom (checkpointAt .fenceB) 3 ∧ grantsFrom waits 5 ∧
      waits.flushFenceWanted = true ∧ waits.mode = .operating ∧ grantsFrom final 0 ∧
      final.mode = .holdup ∧ (∀ e ∈ final.staging.entries, final.sendable e = false) ∧
      final.marks.granted ≠ 1#32 ∧ earlier 1#32 final.marks.granted = false ∧
      final.freeTag = some 0 ∧
      Amount.fits { wh := 0, wd := 0, rd := 1 } final.lowerAvailable = true := by decide +kernel
theorem witness_reservation :
    let s := { twoGroups opState .closed .closed with
      journal := { opState.journal with queue := [0, 1] } }
    let full := { s with journal := { s.journal with head := some 1020#48 } }
    let busy := { s with journal := { s.journal with current := some { record := 2, phase := .fence } } }
    let busyFull := { full with
      journal := { full.journal with current := some { record := 2, phase := .fence } } }
    s.calm ∧ s.journal.queue = 0 :: [1] ∧ s.journal.current = none ∧ s.journal.head = some 0#48 ∧
      s.group? 0 = some (group .closed 1#32) ∧ 2 * 1 + 1 ≤ s.freeLines ∧ full.calm ∧
      full.freeLines < 2 * 1 + 1 ∧ busy.calm ∧ busy.journal.current ≠ none ∧
      2 * 1 + 1 ≤ busy.freeLines ∧ busyFull.calm ∧ busyFull.freeLines < 2 * 1 + 1 := by
  decide +kernel
/-- The worked example of 4.8: 41 lines needed, 32 free; and the same with a group still being written. -/
theorem test_space_wait :
    let s := { pair opState { group .closed 232#32 with count := 20 } (group .committing 231#32) with
      ckpt := { opState.ckpt with tail := some 1030#48 }
      journal := { opState.journal with head := some 2020#48, queue := [0] } }
    let busy := { s with journal := { s.journal with current := some { record := 1, phase := .fence } } }
    s.freeLines = 32 ∧
      leaves .reservation s = { s with journal := { s.journal with spaceWait := true } } ∧
      leaves .reservation busy = { busy with journal := { busy.journal with spaceWait := true } } := by
  decide +kernel
theorem witness_apply_and_checkpoint :
    let s := twoGroups opState .applied .committed
    s.calm ∧ s.apply = none ∧
      s.closedGroups = [(0, group .applied 1#32)] ++ (1, group .committed 2#32) :: [] ∧
      (group .applied 1#32).state = .applied ∧ s.candidateRun = (0, group .applied 1#32) :: [] ∧
      s.ckpt.flight = none ∧ State.calm { s with journal := { s.journal with spaceWait := true } } := by
  decide +kernel
theorem witness_completion :
    let c : Completion := { tag := 9#6, status := .ok, data := zeros 16 }
    let s := { opState with
      reads := some (readRecord (.done c)) :: List.replicate 31 none, formed := [.record 0] }
    s.calm ∧ s.upper.state = .up ∧ s.upperRetry.length < 32 ∧ s.formed = .record 0 :: [] ∧
      s.read? 0 = some (readRecord (.done c)) ∧ (readRecord (.done c)).state = .done c ∧
      s.credits.due = false ∧ State.calm { s with credits := { s.credits with due := true } } ∧
      State.calm { s with formed := [.direct c] } ∧ State.calm { s with upper := retrainPort } := by
  decide +kernel

/-- An anchor of generation 1, as slot 1 holds it. -/
def anchor : Anchor :=
  { epoch := 5#32, generation := 1#32, tail := 0#48, nextSerial := 1#32, size := 65536 }

/-- The answer of an anchor read that is no anchor. -/
def blank : Answer := { status := .ok, data := zeros 64 }

theorem witness_anchor_answer :
    let bytes := answerPacket 0#12 0 0 (anchorLine anchor)
    let i := info .recovery .read (.line 1)
    let s := { awaiting recState i with recovery := { recState.recovery with anchor0 := some blank } }
    s.calm ∧ s.lower.state = .up ∧ frameGood .lower bytes = true ∧ frameSeq bytes = s.lower.expRx ∧
      isCompletion bytes = true ∧ s.tag (completionTag bytes) = .outstanding i ∧
      i.ref = .line 1 ∧ s.mode = .recovering ∧ s.config = some config ∧
      s.recovery.anchor0 = some blank ∧ s.recovery.kind = some .normal ∧
      (parseAnswer bytes).status = .ok ∧ (parseAnswer bytes).data.length = 64 ∧
      validAnchor 65536 1 (parseAnswer bytes) = some anchor ∧ validAnchor 65536 0 blank = none := by
  decide +kernel

/-- A scan at its first line. -/
def scan : Scan := .start 1 anchor

/-- A scan that waits for its first line under tag 0. -/
def scanState : State :=
  { awaiting recState (info .recovery .read (.position 0#48)) with
    recovery := { recState.recovery with
      phase := .scan, scan := some scan
      inFlight := [{ target := .position 0#48, tag := 0, answer := none }] } }

/-- The descriptor the scan expects first. -/
def descriptor : List Byte := descriptorLine 5#32 1#32 0 1 16 0x100000#40 (zeros 16)

theorem witness_scan :
    let bytes := answerPacket 0#12 0 0 descriptor
    scanState.calm ∧ frameGood .lower bytes = true ∧ frameSeq bytes = scanState.lower.expRx ∧
      isCompletion bytes = true ∧
      scanState.tag (completionTag bytes) = .outstanding (info .recovery .read (.position 0#48)) ∧
      scanState.mode = .recovering ∧ scanState.config = some config ∧
      scanState.recovery.phase = .scan ∧ scanState.recovery.scan = some scan ∧ scan.ended = false ∧
      scan.judged = 0#48 ∧ (parseAnswer bytes).data.length = 64 ∧
      scan.descriptorGood config 0 (parseAnswer bytes) = true ∧
      scan.descriptorGood config 0 blank = false := by decide +kernel
/-- A scan with an accepted group of one member. -/
def accepted : Scan :=
  { scan with
    m := some 1
    buffer := [{ target := 0x100000#40, length := 16, check := 0#32, data := zeros 16 }] }

/-- RECOVERY examined first, its engine in a phase. -/
def recoveryAt (phase : RecPhase) (sc : Scan) : State :=
  { recState with
    robin := 6, lowerCredits := opState.lowerCredits
    recovery := { recState.recovery with phase := phase, scan := some sc } }

theorem witness_recovery_grants :
    grantsFrom (recoveryAt .anchors scan) 6 ∧ grantsFrom (recoveryAt .scan scan) 6 ∧
      grantsFrom (recoveryAt .redo accepted) 6 ∧ grantsFrom (recoveryAt .newAnchor scan) 6 ∧
      grantsFrom (recoveryAt .fence1 scan) 6 ∧ grantsFrom (recoveryAt .freshAnchor scan) 6 ∧
      (recoveryAt .anchors scan).recovery.nextSlot = some 0 ∧
      (recoveryAt .scan scan).recovery.nextPosition = some 0#48 ∧ accepted.m = some 1 ∧
      (accepted.buffer[accepted.nextRedo]?).isSome = true ∧ accepted.ended = false ∧
      (recoveryAt .redo accepted).recovery.inFlight = [] ∧ (recoveryAt .fence1 scan).freeTag = some 0 ∧
      (recoveryAt .fence1 scan).mode = .recovering ∧ (recoveryAt .fence1 scan).config = some config ∧
      Amount.fits { wh := 1, wd := 4, rd := 0 } (recoveryAt .redo accepted).lowerAvailable = true ∧
      Amount.fits { wh := 0, wd := 0, rd := 1 } (recoveryAt .redo accepted).lowerAvailable = true := by
  decide +kernel
theorem witness_recovery_end :
    let bytes := answerPacket 0#12 0 0 []
    let i := info .recovery .recoveryFence .none
    let s := awaiting recState i
    let at' := fun phase : RecPhase =>
      { s with recovery := { s.recovery with phase := phase, scan := some scan, fenceOut := true } }
    (at' .fence2).calm ∧ frameGood .lower bytes = true ∧ frameSeq bytes = s.lower.expRx ∧
      isCompletion bytes = true ∧ s.tag (completionTag bytes) = .outstanding i ∧
      i.purpose = .recoveryFence ∧ (parseAnswer bytes).status = .ok ∧ (at' .freshFence).calm ∧
      (at' .freshFence).bestAnchor = none ∧
      State.bestAnchor { s with recovery := { s.recovery with
        anchor0 := some blank, anchor1 := some { status := .ok, data := anchorLine anchor } } } =
          some (1, anchor) := by decide +kernel
theorem witness_journaled_group :
    config.targetGood 0x100000#40 16 = true ∧ config.targetGood 0x4000000#40 16 = false ∧
      scan.buffer.length = 0 ∧ (∀ n ∈ scan.m, n = 1) := by decide +kernel
theorem test_sent_packets_are_good :
    let read := requestBytes 4095#12 (.read 0x123456789A#40 64 31)
    let flushed := completionBytes 7#12 { tag := 63#6, status := .lost, data := zeros 4 }
    (zeros 64).length ≤ 64 ∧ read.length = 19 ∧ frameGood .lower read = true ∧
      byteAt read 11 = 0 ∧ (parseRequest read).addr = 0x123456789A#40 ∧
      flushed.length = 23 ∧ frameGood .upper flushed = true ∧ byteAt flushed 5 = 5 ∧
      frameGood .lower (requestBytes 0#12 (.fence 31)) = true := by decide +kernel
theorem witness_invariants :
    State.reset.linesGood ∧ State.reset.modeGood ∧ State.reset.portsGood ∧ State.reset.sized ∧
      State.reset.balanced ∧ opState.balanced := by decide +kernel
theorem witness_invariant_streams (i : Nat) : State.reset.streamGood i := streams_good _ rfl i

/-! ### Worked values of the spec -/

theorem test_status_report_offsets :
    let data := (twoGroups opState .closed .applied).statusBytes
    data.length = 189 ∧ data[0]? = some 2#8 ∧ data[9]? = some 2#8 ∧ data[17]? = some 7#8 ∧
      data[13]? = some 1#8 ∧ data[177]? = some 1#8 ∧ data[178]? = some 1#8 := by decide +kernel
theorem test_power_on_trains_both_links :
    (leaves (.powerOnReset true false) State.reset).sent.length = 2 ∧
      (leaves (.powerOnReset true false) State.reset).i2cAddress = 0x3A#7 := by decide +kernel
theorem test_pass_write_is_sent :
    let t := leaves .arbiterGrant passState
    t.sent = [.request 0#12 (.write .inPlace 0x100000#40 (zeros 16) false)] ∧
      t.staging.entries = [] ∧ t.marks.passSend = 1#32 ∧ t.robin = 1 := by decide +kernel
theorem test_empty_holdup_is_done_at_entry :
    let t := leaves .pfwNAsserted opState
    t.mode = .safe ∧ t.faults.map FaultRecord.cause = [.holdupDone] := by decide +kernel
theorem test_holdup_entry_fails_and_discards :
    let read := info .read .read (.record 2)
    let t := leaves .pfwNAsserted (awaiting (queued { openState with
      reads := some { readRecord .held with orphan := true } :: some (readRecord .held) ::
        some { readRecord (.issued 0) with intake := 1#32 } :: List.replicate 29 none }) read)
    t.mode = .safe ∧ t.faults.map FaultRecord.cause = [.power, .holdupDone] ∧
      t.formed = [.record 1, .record 2, .direct { tag := 5#6, status := .failed, data := [] }] ∧
      t.read? 0 = none ∧ t.tag 0 = .outstanding { read with detached := true } ∧
      t.credits.pool = { wh := 1, wd := 1, rd := 3 } := by decide +kernel
theorem test_first_descriptor_moves_the_scan_on :
    let t := leaves (.transactionPacket .lower (answerPacket 0#12 0 0 descriptor)) scanState
    t.recovery.phase = .scan ∧ t.recovery.scan.map Scan.m = some (some 1) := by decide +kernel

end Sys2Proof.Tests
end

section
/-! PROOFS. The credit balance (R49, R175): what every operation keeps of it, with the credits that an
event has in hand between taking them from one holder and giving them to the next. -/

namespace Sys2Proof.Machine

/-! ### Cumulative numbers and the credits not held -/

/-- A limit raised by `n` has `n` more unspent, while they stay within the number's range. -/
theorem toNat_raise_sub {w : Nat} (limit consumed : BitVec w) (n : Nat)
    (h : n + (limit - consumed).toNat < 2 ^ w) :
    (limit + BitVec.ofNat w n - consumed).toNat = n + (limit - consumed).toNat := by
  rw [add_comm limit, add_sub_assoc, BitVec.toNat_add, BitVec.toNat_ofNat, Nat.mod_add_mod, Nat.mod_eq_of_lt h]

/-- A consumed count raised by `n` leaves `n` fewer unspent, where as many are there. -/
theorem toNat_sub_raise {w : Nat} (limit consumed : BitVec w) (n : Nat)
    (h : n ≤ (limit - consumed).toNat) :
    n + (limit - (consumed + BitVec.ofNat w n)).toNat = (limit - consumed).toNat := by
  have small : BitVec.ofNat w n ≤ limit - consumed := by
    rw [BitVec.le_def, BitVec.toNat_ofNat]
    exact (Nat.mod_le _ _).trans h
  have range := (limit - consumed).isLt
  rw [sub_add_eq_sub_sub, BitVec.toNat_sub_of_le small, BitVec.toNat_ofNat, Nat.mod_eq_of_lt (by omega)]
  omega

/-- An amount that the cumulative numbers of 8, 12 and 8 bits can tell from every other. -/
def Amount.InRange (a : Amount) : Prop := a.wh < 2 ^ 8 ∧ a.wd < 2 ^ 12 ∧ a.rd < 2 ^ 8

/-- Moving the pools to the limits keeps the credits not held (R178). -/
theorem UpperCredits.unheld_advertise {c : UpperCredits} (h : c.unheld.InRange) :
    c.advertise.unheld = c.unheld := by
  obtain ⟨wh, wd, rd⟩ := h
  simp only [UpperCredits.unheld, UpperCredits.advertise, Limits.raise, unconsumed, Amount.add,
    Amount.zero, Nat.zero_add] at *
  rw [toNat_raise_sub _ _ _ wh, toNat_raise_sub _ _ _ wd, toNat_raise_sub _ _ _ rd]

/-- A return adds to the credits not held (R177, R178). -/
theorem UpperCredits.unheld_giveBack {c : UpperCredits} {a : Amount} (advertises : Bool)
    (h : (c.unheld.add a).InRange) : (c.giveBack advertises a).unheld = c.unheld.add a := by
  have pooled : ({ c with pool := c.pool.add a } : UpperCredits).unheld = c.unheld.add a := by
    simp only [UpperCredits.unheld, Amount.add, Amount.mk.injEq]
    omega
  rw [UpperCredits.giveBack]
  split
  · next none => rw [beq_iff_eq.1 none, Amount.add_zero]
  · split
    · rw [UpperCredits.unheld_advertise (by rwa [pooled]), pooled]
    · exact pooled

/-- A new session keeps the credits not held (R179). -/
theorem UpperCredits.unheld_newSession {c : UpperCredits} (advertises : Bool) (h : c.unheld.InRange) :
    (c.newSession advertises).unheld = c.unheld := by
  obtain ⟨wh, wd, rd⟩ := h
  simp only [UpperCredits.unheld, UpperCredits.newSession] at *
  split
  · have fromZero : ∀ {w : Nat} (n : Nat), n < 2 ^ w → (0#w + BitVec.ofNat w n - 0#w).toNat = n :=
      fun n hn => by rw [toNat_raise_sub _ _ _ (by simpa using hn)]; simp
    simp only [unconsumed, Limits.raise, Limits.zero, Amount.add] at *
    rw [fromZero _ wh, fromZero _ wd, fromZero _ rd]
    simp [Amount.zero]
  · simp [unconsumed, Limits.zero, Amount.add]

/-- A charge that fits leaves the advertised credits, and with it they are as many as before (R176). -/
theorem unconsumed_raise {limit consumed : Limits} {a : Amount}
    (h : a.fits (unconsumed limit consumed) = true) :
    a.add (unconsumed limit (consumed.raise a)) = unconsumed limit consumed := by
  simp only [Amount.fits, Bool.and_eq_true, decide_eq_true_eq] at h
  obtain ⟨⟨wh, wd⟩, rd⟩ := h
  simp only [unconsumed] at wh wd rd
  simp only [Amount.add, unconsumed, Limits.raise, toNat_sub_raise _ _ _ wh, toNat_sub_raise _ _ _ wd,
    toNat_sub_raise _ _ _ rd]

/-! ### Counting entries and records -/

/-- What satisfies `p` and what does not make up the whole sum. -/
theorem sum_filter_add_not {α : Type} (p : α → Bool) (f : α → Nat) (l : List α) :
    ((l.filter fun a => !p a).map f).sum + ((l.filter p).map f).sum = (l.map f).sum := by
  induction l with
  | nil => rfl
  | cons a l ih =>
    cases hp : p a <;> simp [hp] at ih ⊢ <;> omega

/-- The first item that satisfies `p` and the rest make up the whole sum. -/
theorem sum_eraseP {α : Type} {p : α → Bool} {l : List α} {a : α} (f : α → Nat)
    (h : l.find? p = some a) : ((l.eraseP p).map f).sum + f a = (l.map f).sum := by
  induction l with
  | nil => cases h
  | cons b l ih =>
    rw [List.find?_cons] at h
    rw [List.eraseP_cons]
    cases hp : p b <;> simp only [hp] at h ⊢
    · have := ih h
      simp
      omega
    · cases h
      simp
      omega

/-- The records in use are the entries of the table that are not free. -/
theorem State.liveReads_length (s : State) : s.liveReads.length = s.reads.countP Option.isSome := by
  have counted := inUse_countP s.reads fun _ => true
  simpa [State.liveReads] using counted

/-- Replacing a table's entry changes the number in use by that entry. -/
theorem countP_set_add {α : Type} (p : α → Bool) (l : List α) (i : Nat) (a b : α) (h : l[i]? = some b) :
    (l.set i a).countP p + (if p b then 1 else 0) = l.countP p + if p a then 1 else 0 := by
  induction l generalizing i with
  | nil => cases h
  | cons c l ih =>
    cases i with
    | zero =>
      cases h
      simp [List.countP_cons]
      omega
    | succ i =>
      have := ih i h
      simp only [List.set_cons_succ, List.countP_cons]
      omega

/-- Changing a table's entry in use keeps how many are in use. -/
theorem countP_isSome_modify {α : Type} (l : List (Option α)) (i : Nat) (f : α → α) :
    (l.modify i (Option.map f)).countP Option.isSome = l.countP Option.isSome := by
  induction l generalizing i with
  | nil => simp
  | cons a l ih =>
    cases i with
    | zero => simp [List.countP_cons]
    | succ i => simp [List.countP_cons, ih]

/-! ### The balance with credits in hand -/

/-- The balance of R175 and what it rests on, while the event has the credits of `hand` in hand. -/
structure State.Owes (s : State) (hand : Amount) : Prop where
  windows : s.windows.length = Config.windowEntries
  groups : s.groups.length = Config.groupRecords
  streams : s.streams.length = Config.streams
  reads : s.reads.length = Config.readRecords
  tags : s.tags.length = Config.lowerTags
  upperRetry : s.upperRetry.length ≤ Config.upperRetryPackets
  lowerRetry : s.lowerRetry.length ≤ Config.lowerRetryPackets
  robin : s.robin < 7
  wh : s.staging.entries.length + ((queueCharge s.queue).wh + (s.credits.unheld.wh + hand.wh)) = 128
  wd : totalUnits s.staging.entries + ((queueCharge s.queue).wd + (s.credits.unheld.wd + hand.wd)) = 256
  rd : s.reads.countP Option.isSome +
    ((queueCharge s.queue).rd + (s.credits.unheld.rd + hand.rd)) = 32
  freeEntries : s.staging.freeEntries + s.staging.entries.length = Config.stagingEntries
  freeUnits : s.staging.freeUnits + totalUnits s.staging.entries = Config.stagingUnits
  opened : ∀ i, s.streamGood i

/-- The invariant of the statement is the balance with nothing in hand. -/
theorem State.creditGood_iff {s : State} : s.creditGood ↔ s.Owes .zero := by
  constructor
  · rintro ⟨⟨windows, groups, streams, reads, tags, upperRetry, lowerRetry, robin⟩,
      ⟨balance, freeEntries, freeUnits⟩, opened⟩
    simp only [State.inUseAmount, State.liveReads_length, Amount.add, Amount.capacity,
      Amount.mk.injEq] at balance
    obtain ⟨wh, wd, rd⟩ := balance
    exact ⟨windows, groups, streams, reads, tags, upperRetry, lowerRetry, robin, wh, wd, rd,
      freeEntries, freeUnits, opened⟩
  · intro h
    refine ⟨⟨h.windows, h.groups, h.streams, h.reads, h.tags, h.upperRetry, h.lowerRetry, h.robin⟩,
      ⟨?_, h.freeEntries, h.freeUnits⟩, h.opened⟩
    have wh := h.wh
    have wd := h.wd
    have rd := h.rd
    simp only [State.inUseAmount, State.liveReads_length, Amount.add, Amount.capacity,
      Amount.mk.injEq]
    exact ⟨wh, wd, rd⟩

variable {s : State} {a b hand : Amount}

namespace State.Owes

/-- The credits not held, with those in hand, are within range. -/
theorem inRange (h : s.Owes hand) : (s.credits.unheld.add hand).InRange := by
  obtain ⟨wh, wd, rd⟩ := And.intro h.wh (And.intro h.wd h.rd)
  simp only [Amount.InRange, Amount.add]
  omega

/-- Credits in hand come back. -/
theorem returnCredits (h : s.Owes (a.add b)) : (s.returnCredits a).Owes b := by
  have range : (s.credits.unheld.add a).InRange := by
    obtain ⟨wh, wd, rd⟩ := h.inRange
    simp only [Amount.InRange, Amount.add] at *
    omega
  have back := UpperCredits.unheld_giveBack s.mode.advertises range
  obtain ⟨wh, wd, rd⟩ := And.intro h.wh (And.intro h.wd h.rd)
  simp only [Amount.add] at back wh wd rd
  refine { h with wh := ?_, wd := ?_, rd := ?_ } <;>
    simp only [State.returnCredits, back] <;> omega

/-- All the credits in hand come back. -/
theorem returned (h : s.Owes a) : (s.returnCredits a).Owes .zero := returnCredits (b := .zero) h

@[simp] theorem emit (h : s.Owes hand) (u : Sent) : (s.emit u).Owes hand := { h with }
@[simp] theorem setMode (h : s.Owes hand) (m : Mode) : (s.setMode m).Owes hand := { h with }
@[simp] theorem setPort (h : s.Owes hand) (l : Link) (p : Port) : (s.setPort l p).Owes hand := by
  cases l <;> exact { h with }

@[simp] theorem appendFaultIn (h : s.Owes hand) (mode : Mode) (cause : Cause) (f : FaultFields) :
    (s.appendFaultIn mode cause f).Owes hand := { h with }
@[simp] theorem appendFault (h : s.Owes hand) (cause : Cause) (f : FaultFields) :
    (s.appendFault cause f).Owes hand := { h with }
@[simp] theorem raiseDurable (h : s.Owes hand) (n : Num32) : (s.raiseDurable n).Owes hand := { h with }
@[simp] theorem markGranted (h : s.Owes hand) : s.markGranted.Owes hand := { h with }
@[simp] theorem countPassSend (h : s.Owes hand) : s.countPassSend.Owes hand := { h with }
@[simp] theorem withJournal (h : s.Owes hand) (f : Journal → Journal) :
    (s.withJournal f).Owes hand := { h with }
@[simp] theorem withCkpt (h : s.Owes hand) (f : Checkpoint → Checkpoint) :
    (s.withCkpt f).Owes hand := { h with }
@[simp] theorem withFlight (h : s.Owes hand) (f : CkptFlight → CkptFlight) :
    (s.withFlight f).Owes hand := { h with }
@[simp] theorem withRecovery (h : s.Owes hand) (f : Recovery → Recovery) :
    (s.withRecovery f).Owes hand := { h with }
@[simp] theorem withScan (h : s.Owes hand) (f : Scan → Scan) : (s.withScan f).Owes hand := { h with }
@[simp] theorem respond (h : s.Owes hand) (status : RespStatus) (data : List Byte) :
    (s.respond status data).Owes hand := { h with }
@[simp] theorem setTag (h : s.Owes hand) (t : Nat) (v : LowerTag) : (s.setTag t v).Owes hand :=
  { h with tags := by simp [h.tags] }

/-- Changing a read record in use keeps how many are in use. -/
@[simp] theorem modifyRead (h : s.Owes hand) (i : Nat) (f : ReadRecord → ReadRecord) :
    (s.modifyRead i f).Owes hand := by
  have same := countP_isSome_modify s.reads i f
  exact { h with reads := by simp [h.reads], rd := same ▸ h.rd }

/-- Changing a group record keeps its stream's OPEN group when it keeps stream and serial. -/
@[simp] theorem modifyGroup (h : s.Owes hand) (r : Nat) (f : Group → Group)
    (stream : ∀ g, (f g).stream = g.stream) (serial : ∀ g, (f g).serial = g.serial) :
    (s.modifyGroup r f).Owes hand := by
  refine { h with groups := by simp [h.groups], opened := fun i q opened => ?_ }
  obtain ⟨g, hg, hs, hn⟩ := h.opened i q opened
  rw [State.group?_modifyGroup]
  split
  · exact ⟨f g, by rw [hg]; rfl, (stream g).trans hs, (serial g).trans hn⟩
  · exact ⟨g, hg, hs, hn⟩

/-- A record that no stream has OPEN is freed. -/
theorem freeGroup (h : s.Owes hand) (r : Nat) (closed : ∀ i, (s.stream i).group ≠ some r) :
    (s.freeGroup r).Owes hand := by
  refine { h with groups := by simp [h.groups], opened := fun i q opened => ?_ }
  obtain ⟨g, hg, hs, hn⟩ := h.opened i q opened
  refine ⟨g, ?_, hs, hn⟩
  rw [State.group?_freeGroup, if_neg, hg]
  rintro rfl
  exact closed i opened

/-- Changing a stream keeps the OPEN groups when it leaves its group or makes it IDLE. -/
@[simp] theorem modifyStream (h : s.Owes hand) (i : Nat) (f : StreamState → StreamState)
    (keeps : ∀ st, (f st).group = none ∨ (f st).group = st.group) :
    (s.modifyStream i f).Owes hand := by
  refine { h with streams := by simp [h.streams], opened := fun j q opened => ?_ }
  refine h.opened j q ?_
  rw [State.stream_modifyStream] at opened
  split at opened
  · rcases keeps (s.stream j) with idle | same
    · rw [idle] at opened
      cases opened
    · rwa [same] at opened
  · exact opened

/-! ### Staging -/

/-- An entry is staged with the credits in hand. -/
theorem stage (e : Entry) (h : s.Owes { wh := 1, wd := unitsOf e.length, rd := 0 }) :
    (s.stage e).Owes .zero := by
  obtain ⟨wh, wd, rd⟩ := And.intro h.wh (And.intro h.wd h.rd)
  have freeEntries := h.freeEntries
  have freeUnits := h.freeUnits
  simp only [Config.stagingEntries, Config.stagingUnits, totalUnits] at *
  refine { h with wh := ?_, wd := ?_, rd := rd, freeEntries := ?_, freeUnits := ?_ } <;>
    simp [State.stage, Amount.zero, totalUnits, Config.stagingEntries, Config.stagingUnits] <;> omega

/-- Entries are freed and their credits return. -/
@[simp] theorem freeEntriesBy (h : s.Owes hand) (p : Entry → Bool) : (s.freeEntriesBy p).Owes hand := by
  have units := sum_filter_add_not p (fun e => unitsOf e.length) s.staging.entries
  have number := sum_filter_add_not p (fun _ => 1) s.staging.entries
  simp only [List.map_const', List.sum_replicate, smul_eq_mul, mul_one] at number
  obtain ⟨wh, wd, rd⟩ := And.intro h.wh (And.intro h.wd h.rd)
  have freeEntries := h.freeEntries
  have freeUnits := h.freeUnits
  refine returnCredits (b := hand)
    { h with wh := ?_, wd := ?_, rd := ?_, freeEntries := ?_, freeUnits := ?_ } <;>
    simp only [Amount.add, totalUnits] at * <;> omega

/-- One entry is freed and its credits return. -/
@[simp] theorem freeEntryOnce (h : s.Owes hand) (p : Entry → Bool) :
    (s.freeEntryOnce p).Owes hand := by
  rw [State.freeEntryOnce]
  split
  · exact h
  · next e found =>
    have units := sum_eraseP (fun e => unitsOf e.length) found
    have number := sum_eraseP (fun _ => 1) found
    simp only [List.map_const', List.sum_replicate, smul_eq_mul, mul_one] at number
    obtain ⟨wh, wd, rd⟩ := And.intro h.wh (And.intro h.wd h.rd)
    have freeEntries := h.freeEntries
    have freeUnits := h.freeUnits
    refine returnCredits (b := hand)
      { h with wh := ?_, wd := ?_, rd := ?_, freeEntries := ?_, freeUnits := ?_ } <;>
      simp only [Amount.add, totalUnits] at * <;> omega

/-- Changing the kind of entries keeps their number and units. -/
@[simp] theorem mapEntries (h : s.Owes hand) (p : Entry → Bool) (f : EntryKind → EntryKind) :
    (s.mapEntries p f).Owes hand := by
  have units : totalUnits (s.mapEntries p f).staging.entries = totalUnits s.staging.entries := by
    simp only [State.mapEntries, totalUnits, List.map_map]
    congr 2
    funext e
    simp only [Function.comp]
    split <;> rfl
  have number : (s.mapEntries p f).staging.entries.length = s.staging.entries.length :=
    List.length_map ..
  exact { h with
    wh := number ▸ h.wh, wd := units ▸ h.wd, freeEntries := number ▸ h.freeEntries
    freeUnits := units ▸ h.freeUnits }

/-! ### Groups (chapter 2) -/

@[simp] theorem discard (h : s.Owes hand) (mode : Mode) (cause : Cause) (r : Nat) :
    (s.discard mode cause r).Owes hand := by
  rw [State.discard]
  split
  · exact h
  · next g found =>
    have idle : State.Owes ((s.freeEntriesBy (Entry.inRecord r)).modifyStream g.stream fun st =>
        { st with group := none }) hand := by simp [h]
    refine freeGroup (by simp [idle, StreamState.countDiscard]) r fun i opened => ?_
    -- a stream that had the record OPEN is the group's own, which is now IDLE
    have opened : ((s.modifyStream g.stream fun st => StreamState.countDiscard
        { st with group := none } cause).stream i).group = some r := by
      have same : (((s.freeEntriesBy (Entry.inRecord r)).modifyStream g.stream fun st =>
          { st with group := none }).modifyStream g.stream fun st => st.countDiscard cause).streams =
          (s.modifyStream g.stream fun st => StreamState.countDiscard
            { st with group := none } cause).streams := by
        simp only [State.modifyStream, List.modify_modify_eq]
        rfl
      exact (congrArg (fun l => (List.getD l i StreamState.idle).group) same).symm.trans opened
    rw [State.stream_modifyStream] at opened
    split at opened
    · cases opened
    · next other =>
      obtain ⟨g', found', stream, _⟩ := h.opened i r opened
      rw [found] at found'
      cases found'
      refine other ⟨stream, ?_⟩
      by_contra outside
      rw [State.stream, List.getD_eq_getElem?_getD, List.getElem?_eq_none (by omega)] at opened
      cases opened

@[simp] theorem discardStream (h : s.Owes hand) (mode : Mode) (cause : Cause) (i : Nat) :
    (State.discardStream mode cause s i).Owes hand := by
  rw [State.discardStream]
  split <;> simp [h]

/-- A fold of operations that keep the balance keeps it. -/
theorem foldl {α : Type} {f : State → α → State} (keeps : ∀ s a, s.Owes hand → (f s a).Owes hand)
    (l : List α) (h : s.Owes hand) : (l.foldl f s).Owes hand := by
  induction l generalizing s with
  | nil => exact h
  | cons a l ih => exact ih (keeps s a h)

@[simp] theorem discardOpen (h : s.Owes hand) (mode : Mode) (cause : Cause) :
    (s.discardOpen mode cause).Owes hand := foldl (fun _ _ h => h.discardStream ..) _ h

/-- A group write's credits go to its entry, or come back. -/
theorem memberWrite {r : Request} (h : s.Owes r.charge)
    (charge : r.charge = { wh := 1, wd := unitsOf r.length, rd := 0 }) (n : Num32) (inJournal : Bool)
    (i : Nat) (g : Group) : (s.memberWrite n r inJournal i g).Owes .zero := by
  rw [State.memberWrite]
  split
  · exact returned (by simp [h, Group.dropWrite])
  · rw [charge] at h
    exact modifyGroup (stage _ h) _ _ (fun _ => rfl) fun _ => rfl

/-- A group opens in a free record. -/
theorem openGroup (h : s.Owes hand) (stream : Nat) {i : Nat} (free : lowestFree s.groups = some i) :
    (s.openGroup stream i).Owes hand := by
  obtain ⟨inTable, empty, _⟩ := List.findIdx?_eq_some_iff_getElem.1 free
  have groups : ∀ q, (s.openGroup stream i).group? q =
      if i = q then some (.fresh stream) else s.group? q := by
    intro q
    show (s.groups.set i _).getD q none = _
    rw [getD_set]
    by_cases e : i = q
    · subst e
      simp [inTable]
    · simp [e, State.group?]
  have free : s.group? i = none := by
    rw [State.group?, List.getD_eq_getElem?_getD, List.getElem?_eq_getElem inTable]
    simpa using empty
  refine { h with
    groups := by simpa [State.openGroup] using h.groups
    streams := by simpa [State.openGroup] using h.streams
    opened := fun j q opened => ?_ }
  change ((s.modifyStream stream fun st => { st with group := some i }).stream j).group = some q at opened
  rw [State.stream_modifyStream] at opened
  rw [groups]
  split at opened
  · next own =>
    cases opened
    rw [if_pos rfl]
    exact ⟨_, rfl, own.1, rfl⟩
  · obtain ⟨g, hg, hs, hn⟩ := h.opened j q opened
    refine ⟨g, ?_, hs, hn⟩
    rw [if_neg, hg]
    rintro rfl
    rw [free] at hg
    cases hg

/-- A data-carrying group write that is not held: its credits go to its entry, or come back. -/
theorem groupData {r : Request} (h : s.Owes r.charge)
    (charge : r.charge = { wh := 1, wd := unitsOf r.length, rd := 0 })
    (room : (s.stream r.stream).group = none → lowestFree s.groups ≠ none) (n : Num32)
    (inJournal : Bool) : (s.groupData n r inJournal).Owes .zero := by
  rw [State.groupData]
  cases stream : (s.stream r.stream).group with
  | some i =>
    obtain ⟨g, found, _⟩ := h.opened _ i stream
    simp only [found]
    exact memberWrite h charge ..
  | none =>
    obtain ⟨i, free⟩ := Option.ne_none_iff_exists'.1 (room stream)
    simp only [free]
    exact memberWrite (h.openGroup _ free) charge ..

/-- The group of a record closes. -/
theorem closeGroup (h : s.Owes hand) {i : Nat} {g : Group} (found : s.group? i = some g) (n : Num32) :
    (s.closeGroup n i g).Owes hand := by
  rw [State.closeGroup]
  split
  · exact h
  · next serial _ =>
    let idle := s.modifyStream g.stream fun st => { st with group := none }
    have kept : idle.Owes hand := by simp [idle, h]
    refine withJournal ?_ _
    refine { kept with
      groups := by simpa [State.modifyGroup, State.modifyStream] using h.groups
      opened := fun j q opened => ?_ }
    obtain ⟨g', found', stream, open'⟩ := kept.opened j q opened
    refine ⟨g', ?_, stream, open'⟩
    show (s.modifyGroup i _).group? q = _
    rw [State.group?_modifyGroup, if_neg]
    · exact found'
    rintro rfl
    -- the record's stream is IDLE now, so no stream has it OPEN
    change s.group? i = some g' at found'
    rw [found] at found'
    cases found'
    change (idle.stream j).group = some i at opened
    have inTable : j < s.streams.length := by
      by_contra outside
      rw [State.stream, List.getD_eq_getElem?_getD, List.getElem?_eq_none] at opened
      · cases opened
      · simpa [idle, State.modifyStream] using outside
    rw [State.stream_modifyStream, if_pos ⟨stream, inTable⟩] at opened
    cases opened

theorem judgeClose (h : s.Owes hand) {i : Nat} {g : Group} (found : s.group? i = some g) (n : Num32)
    (r : Request) : (s.judgeClose n r i g).Owes hand := by
  rw [State.judgeClose]
  split
  · exact h.discard ..
  · split
    · exact h.closeGroup found n
    · exact h.discard ..

@[simp] theorem close (h : s.Owes hand) (n : Num32) (r : Request) : (s.close n r).Owes hand := by
  rw [State.close]
  split
  · rw [State.emptyClose]
    split <;> simp [h, StreamState.countDiscard]
  · split
    · next found => exact h.judgeClose found n r
    · exact h

theorem groupWrite {r : Request} (h : s.Owes r.charge)
    (charge : r.charge = { wh := 1, wd := unitsOf r.length, rd := 0 })
    (room : (s.stream r.stream).group = none → lowestFree s.groups ≠ none) (n : Num32)
    (inJournal : Bool) : (s.groupWrite n r inJournal).Owes .zero := by
  have member := h.groupData charge room n inJournal
  rw [State.groupWrite]
  split <;> simp [member]

@[simp] theorem clearDiscards (h : s.Owes hand) (i : Nat) : (s.clearDiscards i).Owes hand := by
  simp [State.clearDiscards, h]

@[simp] theorem restoreDiscards (h : s.Owes hand) (i : Nat) (t : Taken) :
    (s.restoreDiscards i t).Owes hand := by
  simp [State.restoreDiscards, h]

/-! ### The read unit and the flush unit (chapter 5) -/

/-- A read record in use is freed and its credit returns. -/
theorem freeRead (h : s.Owes hand) {i : Nat} {rec : ReadRecord} (found : s.read? i = some rec) :
    (s.freeRead i).Owes hand := by
  have at_i : s.reads[i]? = some (some rec) := by
    rw [State.read?, List.getD_eq_getElem?_getD] at found
    cases x : s.reads[i]? <;> simp_all
  have count := countP_set_add Option.isSome s.reads i none (some rec) at_i
  obtain ⟨wh, wd, rd⟩ := And.intro h.wh (And.intro h.wd h.rd)
  refine returnCredits (b := hand) { h with reads := ?_, wh := ?_, wd := ?_, rd := ?_ } <;>
    simp [Amount.add] at * <;> first | omega | exact h.reads

@[simp] theorem dropRead (h : s.Owes hand) (i : Nat) : (s.dropRead i).Owes hand := by
  rw [State.dropRead]
  split
  · exact h
  · next found =>
    have freed := h.freeRead found
    split <;> simp [freed]

@[simp] theorem formRead (h : s.Owes hand) (i : Nat) (status : Status) (data : List Byte) :
    (s.formRead i status data).Owes hand := by
  rw [State.formRead]
  split
  · exact h
  · dsimp only
    split
    · simp [h]
    · exact { h.modifyRead i _ with }

/-- A read or flush takes the lowest free record with its credit. -/
theorem handRead (h : s.Owes { wh := 0, wd := 0, rd := 1 }) (free : lowestFree s.reads ≠ none)
    (n : Num32) (r : Request) (orphan : Bool) : (s.handRead n r orphan).Owes .zero := by
  obtain ⟨i, free⟩ := Option.ne_none_iff_exists'.1 free
  obtain ⟨inTable, empty, _⟩ := List.findIdx?_eq_some_iff_getElem.1 free
  have at_i : s.reads[i]? = some none := by
    rw [List.getElem?_eq_getElem inTable]
    simpa using empty
  have placed : ∀ rec, State.Owes { s with reads := s.reads.set i (some rec) } .zero := by
    intro rec
    have count := countP_set_add Option.isSome s.reads i (some rec) none at_i
    obtain ⟨wh, wd, rd⟩ := And.intro h.wh (And.intro h.wd h.rd)
    refine { h with reads := by simpa using h.reads, rd := ?_ }
    simp [Amount.zero] at *
    omega
  rw [State.handRead]
  simp only [free]
  split <;> simp [placed]

@[simp] theorem settleFlush (h : s.Owes hand) (i : Nat) : (s.settleFlush i).Owes hand := by
  rw [State.settleFlush]
  split
  · exact h
  · split
    · dsimp only
      split <;> simp [h]
    · split
      · exact ((h.clearDiscards _).modifyRead _ _).formRead ..
      · exact h
    · exact h

@[simp] theorem settleFlushes (h : s.Owes hand) : s.settleFlushes.Owes hand := by
  rw [State.settleFlushes]
  split
  · exact foldl (fun _ _ h => h.settleFlush _) _ h
  · exact h

@[simp] theorem failRead (h : s.Owes hand) (i : Nat) : (s.failRead i).Owes hand := by
  have detached : ∀ t, (s.detachTag t).Owes hand := fun t => by
    rw [State.detachTag]
    split <;> simp [h]
  rw [State.failRead]
  split
  · exact h
  · split <;> simp [h, detached]

@[simp] theorem failReads (h : s.Owes hand) : s.failReads.Owes hand :=
  foldl (fun _ _ h => h.failRead _) _ h

@[simp] theorem orphanReads (h : s.Owes hand) : s.orphanReads.Owes hand := by
  have orphaned : ((s.liveReads.map Prod.fst).foldl State.orphanRead s).Owes hand :=
    foldl (fun _ _ h => h.modifyRead ..) _ h
  refine foldl (fun v f hv => ?_) _ { orphaned with }
  cases f with
  | record i => exact hv.dropRead i
  | direct c => exact hv

/-! ### The links (chapter 8) -/

@[simp] theorem sendInit (h : s.Owes hand) (l : Link) (kind : TrainKind) (reply : Bool) :
    (s.sendInit l kind reply).Owes hand := h.emit _

@[simp] theorem sendAck (h : s.Owes hand) (l : Link) : (s.sendAck l).Owes hand :=
  (h.setPort ..).emit _

@[simp] theorem sendNak (h : s.Owes hand) (l : Link) : (s.sendNak l).Owes hand := by
  rw [State.sendNak]
  split <;> simp [h]

@[simp] theorem sendCredit (h : s.Owes hand) : s.sendCredit.Owes hand := { h with }

/-- The retry buffer is replaced by one within its size. -/
theorem setLowerRetry (h : s.Owes hand) {buffer : List LowerPacket}
    (room : buffer.length ≤ Config.lowerRetryPackets) : (s.setLowerRetry buffer).Owes hand :=
  { h with lowerRetry := room, tags := by simpa [State.setLowerRetry] using h.tags }

@[simp] theorem pruneLower (h : s.Owes hand) : s.pruneLower.Owes hand :=
  h.setLowerRetry ((List.length_filter_le ..).trans h.lowerRetry)

/-- The re-send keeps the packets of the buffer. -/
@[simp] theorem resend (h : s.Owes hand) : s.resend.Owes hand := by
  rw [State.resend]
  split
  · obtain ⟨_, buffer, _, _, _, length, _, go⟩ := s.resendGo_spec [] s.lowerRetry
    rw [go]
    exact { h with lowerRetry := by simpa [length] using h.lowerRetry }
  · exact h

@[simp] theorem resendOn (h : s.Owes hand) (l : Link) : (s.resendOn l).Owes hand := by
  cases l <;> simp [State.resendOn, h]

@[simp] theorem replay (h : s.Owes hand) (l : Link) : (s.replay l).Owes hand := by
  rw [State.replay]
  split
  · exact h
  · refine setPort ?_ ..
    exact { h with }

@[simp] theorem startTraining (h : s.Owes hand) (l : Link) : (s.startTraining l).Owes hand := by
  have session : (s.newCreditSession l).Owes hand := by
    cases l with
    | lower => exact h
    | upper =>
      have range : s.credits.unheld.InRange := by
        obtain ⟨wh, wd, rd⟩ := h.inRange
        simp only [Amount.InRange, Amount.add] at *
        omega
      have same := UpperCredits.unheld_newSession s.mode.advertises range
      exact { h with wh := same.symm ▸ h.wh, wd := same.symm ▸ h.wd, rd := same.symm ▸ h.rd }
  exact (session.setPort ..).sendInit ..

/-- A marker at the tail holds no credits. -/
theorem queueCharge_append (queue : List QueueItem) (item : QueueItem) :
    queueCharge (queue ++ [item]) = (queueCharge queue).add item.charge := by
  induction queue with
  | nil => exact (Amount.zero_add _).symm
  | cons first rest ih => rw [List.cons_append, queueCharge, ih, queueCharge, Amount.add_assoc]

@[simp] theorem linkDown (h : s.Owes hand) (l : Link) : (s.linkDown l).Owes hand := by
  cases l with
  | upper =>
    have ended : State.Owes { s with
        upper := s.upper.atDown, upperRetry := []
        credits := { s.credits with refresh := false } } hand :=
      { h with upperRetry := Nat.zero_le _ }
    have orphaned := ended.orphanReads
    refine startTraining (appendFault ?_ _ _) _
    split
    · exact orphaned
    · have same := queueCharge_append (State.orphanReads { s with
        upper := s.upper.atDown, upperRetry := []
        credits := { s.credits with refresh := false } }).queue .linkDownMarker
      rw [QueueItem.charge, Amount.add_zero] at same
      exact { orphaned with
        wh := same.symm ▸ orphaned.wh, wd := same.symm ▸ orphaned.wd, rd := same.symm ▸ orphaned.rd }
  | lower =>
    have kept := h.setLowerRetry (buffer := (s.lowerRetry.filter fun p => s.staysAtDown p.body).map
      fun p => { p with acked := false, resend := true })
      (by simpa using (List.length_filter_le ..).trans h.lowerRetry)
    refine startTraining (appendFault ?_ _ _) _
    exact { kept with }

@[simp] theorem takeLimits (h : s.Owes hand) (l : Link) (limits : Limits) :
    (s.takeLimits l limits).Owes hand := by
  cases l <;> exact { h with }

@[simp] theorem upTimers (h : s.Owes hand) (l : Link) : (s.upTimers l).Owes hand := by
  cases l <;> exact { h with }

@[simp] theorem upFromTraining (h : s.Owes hand) (l : Link) : (s.upFromTraining l).Owes hand := by
  refine resendOn (upTimers ?_ _) _
  cases l <;> exact { h with }

@[simp] theorem upFromRetrain (h : s.Owes hand) (l : Link) : (s.upFromRetrain l).Owes hand := by
  have up : ((s.setPort l { s.port l with state := .up, trainTimer := false }).upTimers l).Owes hand :=
    (h.setPort ..).upTimers l
  refine resendOn ?_ _
  split
  · exact up.replay l
  · exact up

@[simp] theorem tryUp (h : s.Owes hand) (l : Link) : (s.tryUp l).Owes hand := by
  rw [State.tryUp]
  split
  · split <;> simp [h]
  · exact h

@[simp] theorem enterRetrain (h : s.Owes hand) (l : Link) (byPartner : Bool) :
    (s.enterRetrain l byPartner).Owes hand := by
  refine tryUp (appendFault (sendInit ?_ _ _ _) _ _) _
  cases l <;> exact { h with }

@[simp] theorem matchingInit (h : s.Owes hand) (l : Link) (kind : TrainKind) (reply : Bool)
    (limits : Limits) : (s.matchingInit l kind reply limits).Owes hand := by
  refine tryUp ?_ _
  cases reply
  · exact ((h.takeLimits ..).setPort ..).sendInit ..
  · exact (h.takeLimits ..).setPort ..

@[simp] theorem handleInit (h : s.Owes hand) (l : Link) (kind : TrainKind) (reply : Bool)
    (limits : Limits) : (s.handleInit l kind reply limits).Owes hand := by
  unfold State.handleInit
  split <;> simp [h]

@[simp] theorem handleCredit (h : s.Owes hand) (l : Link) (limits : Limits) :
    (s.handleCredit l limits).Owes hand := by
  rw [State.handleCredit]
  split <;> simp [h]

/-- Acknowledging marks packets and removes none. -/
theorem length_ackFirst (k : Nat) (buffer : List LowerPacket) :
    (ackFirst k buffer).length = buffer.length := by
  induction buffer generalizing k with
  | nil => cases k <;> rfl
  | cons p rest ih =>
    cases k with
    | zero => rfl
    | succ k =>
      rw [ackFirst]
      split <;> simp [ih]

@[simp] theorem acknowledge (h : s.Owes hand) (l : Link) (k : Nat) : (s.acknowledge l k).Owes hand := by
  rw [State.acknowledge]
  split
  · exact h
  · refine setPort ?_ ..
    cases l with
    | upper =>
      exact { h with upperRetry := by have := h.upperRetry; simp [State.ackPackets]; omega }
    | lower => exact pruneLower { h with lowerRetry := by rw [length_ackFirst]; exact h.lowerRetry }

@[simp] theorem handleAck (h : s.Owes hand) (l : Link) (n : Seq) : (s.handleAck l n).Owes hand := by
  rw [State.handleAck]
  split
  · split <;> simp [h]
  · exact h

@[simp] theorem countedReplay (h : s.Owes hand) (l : Link) : (s.countedReplay l).Owes hand := by
  rw [State.countedReplay]
  split <;> simp [h]

@[simp] theorem handleNak (h : s.Owes hand) (l : Link) (n : Seq) : (s.handleNak l n).Owes hand := by
  rw [State.handleNak]
  split
  · split
    · exact h
    · dsimp only
      split <;> simp [h]
  · exact h

@[simp] theorem damaged (h : s.Owes hand) (l : Link) : (s.damaged l).Owes hand := by
  rw [State.damaged]
  split <;> simp [h]

@[simp] theorem ackExpiry (h : s.Owes hand) (l : Link) : (s.ackExpiry l).Owes hand := by
  rw [State.ackExpiry]
  split <;> simp [h]

@[simp] theorem replayExpiry (h : s.Owes hand) (l : Link) : (s.replayExpiry l).Owes hand := by
  rw [State.replayExpiry]
  split
  · dsimp only
    split <;> simp [h]
  · exact h

@[simp] theorem trainingExpiry (h : s.Owes hand) (l : Link) : (s.trainingExpiry l).Owes hand := by
  rw [State.trainingExpiry]
  split
  · split <;> simp [h]
  · exact h

/-! ### The modes (chapter 7) -/

/-- The credits of discarded queue items come back. -/
theorem purgeItems (items : List QueueItem) (h : State.Owes { s with queue := [] } (queueCharge items)) :
    State.Owes { s.purgeItems items with queue := [] } .zero := by
  induction items generalizing s with
  | nil => exact h
  | cons item rest ih =>
    refine ih ?_
    cases item with
    | linkDownMarker => exact Amount.zero_add (queueCharge rest) ▸ h
    | holdupMarker => exact Amount.zero_add (queueCharge rest) ▸ h
    | request r =>
      have back := returnCredits (a := r.charge) h
      rw [State.purgeItem]
      split
      · rw [State.failDirect]
        split <;> exact { back with }
      · exact { back with }
      · exact { back with }

/-- The queue's reservations are in hand once it is emptied. -/
theorem emptyQueue (h : s.Owes .zero) : State.Owes { s with queue := [] } (queueCharge s.queue) := by
  obtain ⟨wh, wd, rd⟩ := And.intro h.wh (And.intro h.wd h.rd)
  simp only [Amount.zero] at wh wd rd
  refine { h with wh := ?_, wd := ?_, rd := ?_ } <;> simp only [queueCharge, Amount.zero] <;> omega

theorem purgeQueue (h : s.Owes .zero) : s.purgeQueue.Owes .zero := purgeItems _ h.emptyQueue

theorem purge (h : s.Owes .zero) : s.purge.Owes .zero :=
  purgeItems (s := { s with queue := [.holdupMarker] }) _ h.emptyQueue

@[simp] theorem enterSafe (h : s.Owes hand) : s.enterSafe.Owes hand := { h with }

@[simp] theorem leaveHoldup (h : s.Owes .zero) : s.leaveHoldup.Owes .zero := h.purgeQueue.enterSafe

/-- The pools go to the limits. -/
theorem advertise (h : s.Owes hand) : State.Owes { s with credits := s.credits.advertise } hand := by
  have range : s.credits.unheld.InRange := by
    obtain ⟨wh, wd, rd⟩ := h.inRange
    simp only [Amount.InRange, Amount.add] at *
    omega
  have same := UpperCredits.unheld_advertise range
  exact { h with wh := same.symm ▸ h.wh, wd := same.symm ▸ h.wd, rd := same.symm ▸ h.rd }

@[simp] theorem enterHalted (h : s.Owes hand) (cause : Cause) (f : FaultFields) :
    (s.enterHalted cause f).Owes hand := by
  refine failReads ?_
  exact { h.advertise with }

@[simp] theorem enterOperating (h : s.Owes hand) : s.enterOperating.Owes hand := { h.advertise with }

@[simp] theorem reportError (h : s.Owes .zero) (cause : Cause) (f : FaultFields) :
    (s.reportError cause f).Owes .zero := by
  rw [State.reportError]
  split <;> simp [h]

@[simp] theorem mediaError (h : s.Owes .zero) (f : FaultFields) : (s.mediaError f).Owes .zero :=
  h.reportError ..

@[simp] theorem recoveryFailed (h : s.Owes hand) : s.recoveryFailed.Owes hand := h.enterHalted ..

@[simp] theorem settleHoldup (h : s.Owes .zero) : s.settleHoldup.Owes .zero := by
  have journal : s.markJournalDone.Owes .zero := by
    rw [State.markJournalDone]
    split <;> exact { h with }
  have drain : s.markJournalDone.markDrainDone.Owes .zero := by
    rw [State.markDrainDone]
    split
    · exact journal
    · split
      · exact { journal.mapEntries Entry.isPass EntryKind.toAbandoned with }
      · exact journal
  have fence : s.markJournalDone.markDrainDone.markFenceDone.Owes .zero := by
    rw [State.markFenceDone]
    split <;> exact { drain with }
  rw [State.settleHoldup]
  split
  · rw [State.finishHoldup]
    split <;> simp [fence]
  · exact h

@[simp] theorem pfwTransition (h : s.Owes .zero) : s.pfwTransition.Owes .zero := by
  have holdup : s.enterHoldup.Owes .zero := by
    refine (purge (failReads ?_)).discardOpen ..
    exact { h with }
  rw [State.pfwTransition]
  split <;> simp [h, holdup]

/-! ### The journal (chapter 4) -/

@[simp] theorem reserve (h : s.Owes hand) : s.reserve.Owes hand := by
  rcases s.reserve_cases with same | ⟨waits, same⟩ | ⟨r, rest, g, head, _, _, _, _, _, same⟩ <;> rw [same]
  · exact h
  · exact h.withJournal _
  · refine withJournal (h.modifyGroup _ _ ?_ ?_) _ <;> exact fun _ => rfl

@[simp] theorem followCommit (h : s.Owes hand) (r : Nat) : (s.followCommit r).Owes hand := by
  rw [State.followCommit]
  split
  · exact h
  · split <;> simp [State.commitGroup, h]

@[simp] theorem groupFence (h : s.Owes .zero) (n : Num32) (status : ModStatus) :
    (s.groupFence n status).Owes .zero := by
  rw [State.groupFence]
  split
  · rw [State.groupFenceOk]
    split
    · exact h
    · split
      · split
        · refine foldl (fun _ _ h => h.followCommit _) _ ?_
          simp [State.commitGroup, h]
        · simp [h]
      · exact h
  · exact h.mediaError _

/-- The records a checkpoint covers are closed, so no stream has one OPEN. -/
theorem retire (h : s.Owes hand) (f : CkptFlight) : (s.retire f).Owes hand := by
  have closed : ∀ r ∈ s.coveredRecords f, ∀ i, (s.stream i).group ≠ some r := by
    intro r covered i opened
    obtain ⟨⟨q, g⟩, kept, rfl⟩ := List.mem_map.1 covered
    obtain ⟨found, serial⟩ := State.mem_closedGroups.1 (List.mem_filter.1 kept).1
    obtain ⟨g', found', _, open'⟩ := h.opened i _ opened
    rw [found] at found'
    cases found'
    rw [open'] at serial
    cases serial
  have freed : ∀ (records : List Nat) (v : State), v.Owes hand →
      (∀ r ∈ records, ∀ i, (v.stream i).group ≠ some r) →
      (records.foldl State.freeGroup v).Owes hand := by
    intro records
    induction records with
    | nil => exact fun _ hv _ => hv
    | cons r records ih =>
      exact fun v hv closed => ih _ (hv.freeGroup r (closed r List.mem_cons_self))
        fun q hq => closed q (List.mem_cons_of_mem r hq)
  have retired := freed (s.coveredRecords f) _
    (h.freeEntriesBy fun e => (s.coveredRecords f).any fun r => e.inRecord r) closed
  rw [State.retire]
  split <;> simp [retired]

@[simp] theorem fenceADone (h : s.Owes .zero) (status : ModStatus) :
    (s.fenceADone status).Owes .zero := by
  rw [State.fenceADone]
  split <;> simp [State.ckptFenceError, h]

@[simp] theorem fenceBDone (h : s.Owes .zero) (status : ModStatus) :
    (s.fenceBDone status).Owes .zero := by
  rw [State.fenceBDone]
  split
  · split
    · exact h
    · exact h.retire _
  · exact h.mediaError _

@[simp] theorem startCheckpoint (h : s.Owes hand) : s.startCheckpoint.Owes hand := by
  rw [State.startCheckpoint]
  split <;> simp [h]

@[simp] theorem takeApply (h : s.Owes hand) : s.takeApply.Owes hand := by
  rw [State.takeApply]
  split
  · split
    · next r _ _ _ =>
      have taken := h.modifyGroup r (fun g => { g with state := .applying }) (fun _ => rfl) fun _ => rfl
      exact { taken with }
    · exact h
  · exact h

/-! ### Recovery (chapter 6) -/

@[simp] theorem endScan (h : s.Owes hand) : s.endScan.Owes hand := h.withRecovery _

@[simp] theorem putScan (h : s.Owes hand) (sc : Scan) : (s.putScan sc).Owes hand := h.withRecovery _

@[simp] theorem anchorAnswer (h : s.Owes .zero) (slot : Nat) (a : Answer) :
    (s.anchorAnswer slot a).Owes .zero := by
  have recorded := h.withRecovery fun r => r.recordAnchor slot a
  rw [State.anchorAnswer]
  split
  · exact recorded.mediaError _
  · rw [State.judgeAnchors]
    split
    · split
      · exact recorded.withRecovery _
      · rw [State.selectAnchor]
        split
        · exact recorded.recoveryFailed
        · exact recorded.withRecovery _
    · exact recorded

@[simp] theorem judgeLine (h : s.Owes .zero) (c : JournalConfig) (sc : Scan) (a : Answer) :
    (s.judgeLine c sc a).Owes .zero := by
  rw [State.judgeLine]
  split
  · exact h.mediaError _
  · split
    · rw [State.judgeCommit]
      split <;> simp [h]
    · split
      · rw [State.judgeDescriptor]
        split
        · dsimp only
          split <;> simp [h]
        · exact h.endScan
      · rw [State.judgeData]
        split <;> simp [h]

@[simp] theorem judgeLines (k : Nat) (h : s.Owes .zero) : (State.judgeLines k s).Owes .zero := by
  induction k generalizing s with
  | zero => exact h
  | succ k ih =>
    rw [State.judgeLines]
    split
    · split
      · exact h
      · exact ih ((h.withRecovery _).judgeLine ..)
    · exact h

@[simp] theorem recoveryRead (h : s.Owes .zero) (ref : TagRef) (a : Answer) :
    (s.recoveryRead ref a).Owes .zero := by
  have position : ∀ p, (s.positionAnswer p a).Owes .zero := by
    intro p
    rw [State.positionAnswer]
    split
    · exact h.withRecovery _
    · exact judgeLines _ (h.withRecovery _)
  unfold State.recoveryRead
  split
  · split <;> simp [h, position]
  · exact h

@[simp] theorem recoveryFence (h : s.Owes .zero) (status : ModStatus) :
    (s.recoveryFence status).Owes .zero := by
  have ended : ∀ (v : State) (x : Anchor) (f : FaultFields), v.Owes .zero →
      (((v.takeAnchor x).appendFault .recoveryDone f).enterOperating).Owes .zero := by
    intro v x f hv
    refine enterOperating (appendFault ?_ _ _)
    exact { hv with }
  have fence : ∀ v : State, v.Owes .zero → v.fenceOk.Owes .zero := by
    intro v hv
    rw [State.fenceOk]
    split
    · rw [State.endFresh]
      split
      · exact hv
      · exact ended _ _ _ hv
    · exact hv.withRecovery _
    · rw [State.endNormal]
      split
      · exact ended _ _ _ hv
      · exact hv
    · exact hv
  rw [State.recoveryFence]
  split
  · dsimp only
    split
    · exact fence _ (h.withRecovery _)
    · exact (h.withRecovery _).mediaError _
  · exact h

/-! ### The arbiter (chapter 9) -/

@[simp] theorem settleClaims (h : s.Owes hand) : s.settleClaims.Owes hand := { h with }

theorem journalGranted (h : s.Owes hand) : s.journalGranted.Owes hand := by
  rw [State.journalGranted]
  split
  · exact h
  · split
    · exact h.withJournal _
    · exact h.withJournal _
    · refine withJournal (h.modifyGroup _ _ ?_ ?_) _ <;> exact fun _ => rfl

theorem applyGranted (h : s.Owes hand) : s.applyGranted.Owes hand := by
  rw [State.applyGranted]
  split
  · exact h
  · next a _ =>
    split
    · exact h
    · next g _ =>
      have applied := h.mapEntries (Entry.isMember a.record (g.members.getD a.next 0)) EntryKind.toApplied
      dsimp only
      split
      · exact { applied with }
      · have ended := applied.modifyGroup a.record (fun g => { g with state := .applied })
          (fun _ => rfl) fun _ => rfl
        exact { ended with }

theorem recoveryGranted (h : s.Owes hand) (tag : Option (Nat × TagInfo)) :
    (s.recoveryGranted tag).Owes hand := by
  have read : (s.recoveryReadGranted tag).Owes hand := by
    unfold State.recoveryReadGranted
    split <;> simp [h]
  have redo : ∀ sc, (s.redoGranted sc).Owes hand := by
    intro sc
    rw [State.redoGranted]
    split
    · exact h.withScan _
    · rw [State.examineGroup]
      split
      · split <;> simp [h]
      · exact h.withRecovery _
  have fence : s.recoveryFenceGranted.Owes hand := h.withRecovery _
  unfold State.recoveryGranted
  split <;> (try split) <;> simp [h, read, fence, redo]

theorem granted (h : s.Owes hand) (o : Offer) (src : Source) : (s.granted o src).Owes hand := by
  cases src with
  | passDrain =>
    show (s.passGranted o.body).Owes hand
    unfold State.passGranted
    split <;> simp [h]
  | journal => exact h.journalGranted
  | apply => exact h.applyGranted
  | checkpoint => exact h.withFlight _
  | readIssue =>
    show (s.readGranted o.tag).Owes hand
    unfold State.readGranted
    split <;> simp [h]
  | flushFence => exact h
  | recovery => exact h.recoveryGranted _

/-- One packet more is sent, where the retry buffer has room. -/
theorem sendLower (h : s.Owes hand) (room : s.lowerRetry.length < Config.lowerRetryPackets)
    (b : LowerBody) : (s.sendLower b).Owes hand :=
  { h with lowerRetry := by simpa [State.sendLower, State.chargeLower] using room }

theorem grant (h : s.Owes hand) (room : s.lowerRetry.length < Config.lowerRetryPackets) (src : Source)
    (o : Offer) : (s.grant src o).Owes hand := by
  let moved : State := { s with
    robin := (src.position + 1) % 7
    claims := s.claims.keep fun h => h != src }
  have movedOwes : moved.Owes hand := { h with robin := Nat.mod_lt _ (by decide) }
  have tagged : (moved.takeTag o.tag).Owes hand ∧ (moved.takeTag o.tag).lowerRetry = s.lowerRetry := by
    cases o.tag with
    | none => exact ⟨movedOwes, rfl⟩
    | some t => exact ⟨movedOwes.setTag .., rfl⟩
  have marked : ((moved.takeTag o.tag).markFence o.body).Owes hand ∧
      ((moved.takeTag o.tag).markFence o.body).lowerRetry = s.lowerRetry := by
    obtain ⟨tagged, buffer⟩ := tagged
    cases o.body with
    | fence t => exact ⟨tagged.markGranted, buffer⟩
    | write kind addr data poison => exact ⟨tagged, buffer⟩
    | read addr length t => exact ⟨tagged, buffer⟩
  exact granted (marked.1.sendLower (marked.2 ▸ room) _) o src

@[simp] theorem arbitrate (h : s.Owes hand) : s.arbitrate.Owes hand := by
  rw [State.arbitrate]
  split
  · next may =>
    have room : s.lowerRetry.length < Config.lowerRetryPackets := by
      simp only [State.mayGrant, Bool.and_eq_true, decide_eq_true_eq] at may
      exact may.2
    dsimp only
    split
    · exact { h with }
    · refine grant ?_ ?_ ..
      · exact { h with }
      · exact room
  · exact h

/-! ### The events -/

theorem trainPorts (h : s.Owes hand) : s.trainPorts.Owes hand := by
  have trained : ∀ (v : State) (l : Link), v.Owes hand → (v.trainIfDown l).Owes hand := by
    intro v l hv
    rw [State.trainIfDown]
    split <;> simp [hv]
  exact trained _ _ (trained _ _ h)

theorem beginEvent (h : s.Owes .zero) : s.beginEvent.Owes .zero := by
  have trained : (State.trainPorts { s with sent := [] }).Owes .zero := trainPorts { h with }
  rw [State.beginEvent, State.samplePfw]
  split
  · exact trained.pfwTransition
  · exact trained

theorem endEvent (h : s.Owes .zero) : s.endEvent.Owes .zero := h.settleFlushes.settleHoldup.settleClaims

/-- The charge of the head request is in hand once the request is taken. -/
theorem takeHead {r : Request} {rest : List QueueItem} (h : s.Owes .zero)
    (queue : s.queue = .request r :: rest) : (s.takeHead rest).Owes r.charge := by
  obtain ⟨wh, wd, rd⟩ := And.intro h.wh (And.intro h.wd h.rd)
  simp only [queue, queueCharge, QueueItem.charge, Amount.add, Amount.zero] at wh wd rd
  refine { h with wh := ?_, wd := ?_, rd := ?_ } <;> simp only [State.takeHead] <;> omega

/-- A well-formed write's credits go to its entry, or come back (R10 to R13). -/
theorem routeWrite {r : Request} (h : s.Owes r.charge) (kind : r.kind = .write)
    (formed : r.malformed = false) (room : s.recordHold r = false) (n : Num32) :
    (s.routeWrite n r).Owes .zero := by
  have short : r.length ≤ 64 := by
    simp only [Request.malformed, kind, Bool.or_eq_false_iff, decide_eq_false_iff_not] at formed
    omega
  have charge : r.charge = { wh := 1, wd := unitsOf r.length, rd := 0 } := by
    simp [Request.charge, kind, Nat.not_lt.2 short]
  rw [State.routeWrite]
  split
  · rw [State.zeroWrite]
    split <;> simp [h.returned]
  · next data =>
    split
    · next group =>
      refine h.groupWrite charge (fun idle full => ?_) n _
      simp [State.recordHold, Request.isGroupData, kind, group, idle, full] at room
      omega
    · rw [State.plainWrite]
      split
      · exact stage _ (charge ▸ h)
      · exact (h.appendFault ..).returned

/-- The head request's credits find a new holder, or come back (R8 to R14, R19). -/
theorem takeRequest (h : s.Owes .zero) : s.takeRequest.Owes .zero := by
  have read : ∀ (r : Request) (rest : List QueueItem) (orphan : Bool), s.queue = .request r :: rest →
      s.readRoom r = true → r.kind = .read →
      ((s.takeHead rest).handRead s.intake r orphan).Owes .zero := by
    intro r rest orphan queue room kind
    have taken := h.takeHead queue
    have charge : r.charge = { wh := 0, wd := 0, rd := 1 } := by simp [Request.charge, kind]
    refine handRead (charge ▸ taken) ?_ _ _ _
    intro full
    change lowestFree s.reads = none at full
    simp [State.readRoom, kind, full] at room
  have dropped : ∀ (r : Request) (rest : List QueueItem), s.queue = .request r :: rest →
      ((s.takeHead rest).dropMalformed r).Owes .zero :=
    fun r rest queue => ((h.takeHead queue).appendFault ..).returned
  unfold State.takeRequest
  split
  · next r rest queue =>
    split
    · next room =>
      split
      · split
        · exact h
        · next free =>
          unfold State.classify
          split
          · next kind => exact read r rest _ queue room kind
          · next kind =>
            split
            · exact dropped r rest queue
            · next formed =>
              simp only [State.held, Bool.or_eq_true, not_or, Bool.not_eq_true] at free
              exact (h.takeHead queue).routeWrite kind (by simpa using formed) free.1 _
          · exact dropped r rest queue
      · unfold State.haltedTake
        split
        · next kind => exact read r rest _ queue room kind
        · exact (h.takeHead queue).returned
        · exact (h.takeHead queue).returned
      · exact h
    · exact h
  · exact h

/-- A LINK_DOWN marker holds no credits. -/
theorem takeMarker (h : s.Owes .zero) : s.takeMarker.Owes .zero := by
  unfold State.takeMarker
  split
  · next rest queue =>
    have removed : State.Owes { s with queue := rest } .zero := by
      obtain ⟨wh, wd, rd⟩ := And.intro h.wh (And.intro h.wd h.rd)
      simp only [queue, queueCharge, QueueItem.charge, Amount.zero_add] at wh wd rd
      exact { h with wh := wh, wd := wd, rd := rd }
    split <;> simp [h, removed]
  · exact h

theorem intakeInHoldup (h : s.Owes .zero) : s.intakeInHoldup.Owes .zero := by
  unfold State.intakeInHoldup
  split
  · next r rest queue =>
    split
    · have taken : State.Owes { s with queue := rest } r.charge := { h.takeHead queue with }
      rw [State.purgeItem]
      split
      · rw [State.failDirect]
        split
        · exact { taken.returned with }
        · exact taken.returned
      · exact taken.returned
      · exact taken.returned
    · exact h
  · exact h

/-- An accepted request's charge moves from the advertised credits to the queue (R176). -/
theorem receiveRequest (h : s.Owes .zero) (r : Request) : (s.receiveRequest r).Owes .zero := by
  rw [State.receiveRequest]
  split
  · next fits =>
    have charged := unconsumed_raise fits
    simp only [Amount.add, Amount.mk.injEq, unconsumed] at charged
    obtain ⟨wh, wd, rd⟩ := And.intro h.wh (And.intro h.wd h.rd)
    refine { h with wh := ?_, wd := ?_, rd := ?_ } <;>
      simp only [queueCharge_append, QueueItem.charge, UpperCredits.unheld, unconsumed, Amount.add] at * <;>
      omega
  · exact (h.appendFault ..).linkDown .upper

/-- An answer that reaches its owner (R184). -/
theorem handOn (h : s.Owes .zero) (info : TagInfo) (answer : Answer) :
    (s.handOn info answer).Owes .zero := by
  have counted : (s.countFence info answer.status).Owes .zero := by
    rw [State.countFence]
    split <;> simp [h]
  have plain : ∀ v : State, v.Owes .zero → (v.handPlainFence answer.status).Owes .zero := by
    intro v hv
    rw [State.handPlainFence]
    split <;> simp [hv]
  unfold State.handOn
  split
  · unfold State.handRecordRead
    split
    · exact h.formRead ..
    · exact h.recoveryRead ..
  · unfold State.handGroupFence
    split <;> simp [counted]
  · exact counted.fenceADone _
  · exact counted.fenceBDone _
  · exact plain _ counted
  · exact plain _ counted
  · exact counted.recoveryFence _

theorem judgePacket (h : s.Owes .zero) (l : Link) (bytes : List Byte) :
    (s.judgePacket l bytes).Owes .zero := by
  have accepted : (s.acceptPacket l (frameSeq bytes)).Owes .zero := by
    rw [State.acceptPacket]
    split <;> simp [h]
  have consumed : ((s.acceptPacket l (frameSeq bytes)).consume l bytes).Owes .zero := by
    cases l with
    | upper =>
      rw [State.consume]
      split
      · exact accepted
      · exact accepted.receiveRequest _
    | lower =>
      rw [State.consume]
      split
      · unfold State.receiveCompletion
        split
        · have spent := (accepted.setTag (completionTag bytes) (.spent ‹_›)).pruneLower
          dsimp only
          split
          · exact spent
          · exact spent.handOn ..
        · exact accepted
      · exact accepted
  unfold State.judgePacket
  dsimp only
  repeat' split
  all_goals simp [h, consumed]

theorem takeCompletion (h : s.Owes .zero) : s.takeCompletion.Owes .zero := by
  unfold State.takeCompletion
  split
  · exact h
  · next f rest _ =>
    split
    · next may =>
      split
      · exact h
      · next c complete =>
        have room : s.upperRetry.length < Config.upperRetryPackets := by
          simp only [State.mayTakeCompletion, Bool.and_eq_true, decide_eq_true_eq] at may
          exact may.2
        have sent : (State.sendCompletion { s with formed := rest } c).Owes .zero :=
          { h with upperRetry := by simpa [State.sendCompletion] using room }
        cases f with
        | direct c => exact sent
        | record i =>
          cases found : s.read? i with
          | none => simp [State.formedCompletion, found] at complete
          | some rec => exact sent.freeRead (rec := rec) found
    · exact h

/-- A management command (chapter 10). -/
theorem command (h : s.Owes hand) (expected : Nat) (body : List Byte) {f : List Byte → State → State}
    (keeps : ∀ params, (f params s).Owes hand) : (s.command expected body f).Owes hand := by
  rw [State.command]
  split
  · exact keeps _
  · exact h.respond ..

theorem writePending (h : s.Owes hand) (body : List Byte) : (s.writePending body).Owes hand := by
  unfold State.writePending
  split
  · exact h.respond ..
  · exact { h with }

theorem doSetJournal (h : s.Owes hand) (params : List Byte) : (doSetJournal params s).Owes hand := by
  unfold Machine.doSetJournal
  dsimp only
  repeat' split
  all_goals exact { h with }

theorem doSetParameters (h : s.Owes hand) (params : List Byte) :
    (doSetParameters params s).Owes hand := by
  unfold Machine.doSetParameters
  repeat' split
  all_goals exact { h with }

theorem doReadPending (h : s.Owes hand) (params : List Byte) : (doReadPending params s).Owes hand := by
  unfold Machine.doReadPending
  split <;> exact { h with }

theorem doReadEntry (h : s.Owes hand) (params : List Byte) : (doReadEntry params s).Owes hand := by
  unfold Machine.doReadEntry
  split <;> exact { h with }

theorem doCommitEntry (h : s.Owes hand) (params : List Byte) : (doCommitEntry params s).Owes hand := by
  have matched : ∀ e, (s.commitMatched e).Owes hand := by
    intro e
    unfold State.commitMatched
    repeat' split
    all_goals exact { h with windows := by simpa [State.putWindow, State.refuse] using h.windows }
  unfold Machine.doCommitEntry
  repeat' split
  all_goals first | exact matched _ | exact { h with }

theorem doStart (h : s.Owes hand) (params : List Byte) : (doStart params s).Owes hand := by
  unfold Machine.doStart
  repeat' split
  all_goals exact { h with }

theorem doReadFault (h : s.Owes hand) (params : List Byte) : (doReadFault params s).Owes hand := by
  unfold Machine.doReadFault
  split <;> exact { h with }

/-- The state after reset holds every credit in the return pools. -/
theorem reset : State.reset.Owes .zero := by
  refine ⟨rfl, rfl, rfl, rfl, rfl, by decide, by decide, by decide, rfl, rfl, rfl, rfl, rfl, ?_⟩
  intro i r opened
  have idle : State.reset.stream i = .idle := by
    simp only [State.stream, State.reset, List.getD_eq_getElem?_getD, List.getElem?_replicate]
    split <;> rfl
  rw [idle] at opened
  cases opened

/-- A whole event with an effect that keeps the balance. -/
theorem event {f : State → State} (h : s.Owes .zero) (keeps : ∀ v : State, v.Owes .zero → (f v).Owes .zero) :
    ∃ t, s.event f = .next t ∧ t.Owes .zero :=
  ⟨_, rfl, (keeps _ h.beginEvent).endEvent⟩

theorem exec (h : s.Owes .zero) (c : Instr) : After c s fun t => t.Owes .zero := by
  have received : ∀ (l : Link) (form : UnitForm) (f : LinkUnit → State → State),
      (∀ u v, State.Owes v .zero → (f u v).Owes .zero) →
      ∃ t, (s.event fun v => v.receiveUnit l form f) = .next t ∧ t.Owes .zero := by
    intro l form f keeps
    refine h.event fun v hv => ?_
    unfold State.receiveUnit
    split <;> simp [hv, keeps]
  have managed : ∀ (n : Nat) (body : List Byte) (f : List Byte → State → State),
      (∀ params v, State.Owes v .zero → (f params v).Owes .zero) →
      ∃ t, (s.event fun v => v.command n body f) = .next t ∧ t.Owes .zero :=
    fun n body f keeps => h.event fun v hv => hv.command n body fun params => keeps params v hv
  cases c with
  | powerOnReset addr1 addr0 => exact ⟨_, rfl, trainPorts { reset with }⟩
  | warmReset => exact ⟨_, rfl, trainPorts { reset with windows := h.windows }⟩
  | pfwNAsserted => exact event { h with } fun _ hv => hv
  | pfwNDeasserted => exact event { h with } fun _ hv => hv
  | transactionPacket l bytes => exact h.event (f := (·.judgePacket l bytes)) fun _ hv => hv.judgePacket l bytes
  | init l bytes =>
    refine received l _ _ fun u v hv => ?_
    cases u <;> simp [onInit, hv]
  | ack l bytes =>
    refine received l _ _ fun u v hv => ?_
    cases u <;> simp [onAck, hv]
  | nak l bytes =>
    refine received l _ _ fun u v hv => ?_
    cases u <;> simp [onNak, hv]
  | credit l bytes =>
    refine received l _ _ fun u v hv => ?_
    cases u <;> simp [onCredit, hv]
  | ackTimerExpiry l => exact h.event (f := (·.ackExpiry l)) fun _ hv => hv.ackExpiry l
  | replayTimerExpiry l => exact h.event (f := (·.replayExpiry l)) fun _ hv => hv.replayExpiry l
  | trainingTimerExpiry l => exact h.event (f := (·.trainingExpiry l)) fun _ hv => hv.trainingExpiry l
  | refreshTimerExpiry =>
    refine h.event fun v hv => ?_
    unfold State.refreshExpiry
    split <;> simp [hv]
  | lowerHoldTimerExpiry =>
    refine h.event fun v hv => ?_
    unfold State.holdExpiry
    split
    · refine reportError ?_ ..
      exact { hv with }
    · exact hv
  | budgetTimerExpiry =>
    refine h.event fun v hv => ?_
    unfold State.budgetTimerExpiry State.budgetExpiry
    split
    · split <;> simp [hv]
    · exact hv
  | identify body => exact managed _ _ _ fun _ _ hv => hv.respond ..
  | readStatus body => exact managed _ _ _ fun _ _ hv => hv.respond ..
  | setJournal body => exact managed _ _ _ fun params _ hv => hv.doSetJournal params
  | setParameters body => exact managed _ _ _ fun params _ hv => hv.doSetParameters params
  | writePendingEntry body => exact h.event fun _ hv => hv.writePending body
  | readPendingEntry body => exact managed _ _ _ fun params _ hv => hv.doReadPending params
  | commitEntry body => exact managed _ _ _ fun params _ hv => hv.doCommitEntry params
  | readEntry body => exact managed _ _ _ fun params _ hv => hv.doReadEntry params
  | start body => exact managed _ _ _ fun params _ hv => hv.doStart params
  | readFault body => exact managed _ _ _ fun params _ hv => hv.doReadFault params
  | unknownCommandCode code body => exact h.event fun _ hv => hv.respond ..
  | takeRequest => exact h.event fun _ hv => hv.takeRequest
  | linkDownMarkerAtHead => exact h.event fun _ hv => hv.takeMarker
  | holdupIntake => exact h.event fun _ hv => hv.intakeInHoldup
  | arbiterGrant => exact h.event fun _ hv => hv.arbitrate
  | reservation => exact h.event fun _ hv => hv.reserve
  | applyTakeGroup => exact h.event fun _ hv => hv.takeApply
  | checkpointStart => exact h.event fun _ hv => hv.startCheckpoint
  | completionTaken => exact h.event fun _ hv => hv.takeCompletion
  | creditUnitSent =>
    refine h.event fun v hv => ?_
    unfold State.sendDueCredit
    split <;> simp [hv]

end State.Owes

/-- Settles O60: every command keeps the balance, each operation of its effect with the credits it has in
hand. -/
theorem stepKeepsTheCreditBalance : Obligations.StepKeepsTheCreditBalance := by
  unfold Obligations.StepKeepsTheCreditBalance
  intro s t good stepped
  have h := State.creditGood_iff.1 good
  rw [State.creditGood_iff]
  unfold step at stepped
  split at stepped
  · cases stepped
    exact h
  · next c rest _ =>
    have front : State.Owes { s with pending := rest } .zero := { h with }
    obtain ⟨t', answered, balanced⟩ := front.exec c
    rw [answered] at stepped
    cases stepped
    exact balanced

end Sys2Proof.Machine
end

section
/-! PROOFS. The classifier (chapter 1) and the resets: what TAKE_REQUEST does by the kind and form of the
head request, the line verdict, and the reset state. -/

namespace Sys2Proof.Machine

variable {s : State} {r : Request} {rest : List QueueItem}

/-! ### Resets -/

/-- A port that has just been reset starts training; with no limit advertised the credits not held stay in
the pools (R155, R174, R179). -/
theorem State.trainIfDown_of_reset {l : Link} (port : s.port l = .reset) (credits : s.credits = .reset)
    (mode : s.mode = .unconfigured) :
    s.trainIfDown l =
      (s.setPort l Port.reset.restarted).emit (.unit l (.init .train false .zero)) := by
  have session : UpperCredits.reset.newSession Mode.unconfigured.advertises = .reset := by decide
  have starts : s.trainIfDown l = s.startTraining l := if_pos (by rw [port]; exact ⟨rfl, rfl⟩)
  have kept : s.newCreditSession l = s := by
    cases l with
    | lower => rfl
    | upper =>
      have same : s.credits.newSession s.mode.advertises = s.credits := by rw [mode, credits, session]
      rw [State.newCreditSession, same]
  have limits : (s.setPort l Port.reset.restarted).initLimits l = .zero := by
    cases l with
    | lower => rfl
    | upper => exact congrArg UpperCredits.limit credits
  rw [starts, State.startTraining, kept, port, State.sendInit]
  exact congrArg (fun x => State.emit _ (.unit l (.init .train false x))) limits

/-- Both ports, reset just now, start training. -/
theorem State.trainPorts_of_reset (upper : s.upper = .reset) (lower : s.lower = .reset)
    (credits : s.credits = .reset) (mode : s.mode = .unconfigured) :
    s.trainPorts =
      { s with
        sent := s.sent ++ [.unit .upper (.init .train false .zero)] ++
          [.unit .lower (.init .train false .zero)]
        upper := Port.reset.restarted, lower := Port.reset.restarted } := by
  rw [State.trainPorts, State.trainIfDown_of_reset (l := .upper) upper credits mode,
    State.trainIfDown_of_reset (l := .lower) (by exact lower) (by exact credits) (by exact mode)]
  rfl

/-- Settles O5: before training both resets leave the reset state, but for what they keep. -/
theorem resetsLeaveTheResetState : Obligations.ResetsLeaveTheResetState := by
  unfold Obligations.ResetsLeaveTheResetState
  have powered : ∀ (addr1 addr0 : Bool) (s : State), (s.powerOn addr1 addr0).trainPorts = _ :=
    fun _ _ _ => State.trainPorts_of_reset rfl rfl rfl rfl
  refine ⟨fun addr1 addr0 s => ?_, fun addr1 addr0 s => ⟨_, rfl, ?_⟩⟩
  · rw [exec, execPowerOnReset, powered]
    cases addr1 <;> cases addr0 <;> rfl
  · rw [powered, exec, execWarmReset, State.trainPorts_of_reset (s := s.warmed) rfl rfl rfl rfl]
    rfl

/-! ### The line verdict (R5, R6) -/

/-- A byte lies in a valid window. -/
theorem Window.covers_iff (w : Window) (a : Nat) : (w.valid && w.covers a) = true ↔
    w.valid = true ∧ w.base.toNat ≤ a ∧ a < w.base.toNat + w.pages * 4096 := by
  simp only [Window.covers, Bool.and_eq_true, decide_eq_true_eq]
  rfl

/-- The only window a byte falls in is the one found. -/
theorem State.windowAt_of_unique {a : Nat} {w : Window} (mem : w ∈ s.windows)
    (covers : (w.valid && w.covers a) = true)
    (unique : ∀ v ∈ s.windows, (v.valid && v.covers a) = true → v = w) : s.windowAt a = some w := by
  cases found : s.windowAt a with
  | none => exact absurd covers (List.find?_eq_none.1 found w mem)
  | some v =>
    have covered : (v.valid && v.covers a) = true :=
      List.find?_some (p := fun w : Window => w.valid && w.covers a) found
    rw [unique v (List.mem_of_find?_eq_some found) covered]

/-- Settles O37: the four cases of the verdict, each tested where the ones before it fail. -/
theorem lineVerdictIsTakenInOrder : Obligations.LineVerdictIsTakenInOrder := by
  unfold Obligations.LineVerdictIsTakenInOrder
  intro s addr a beyond region inWindow
  have isBeyond : (s.config.any fun c => decide (c.moduleSize ≤ a)) = true ↔ beyond := by
    simp [beyond, Option.any_eq_true]
  have isRegion : (s.config.any fun c => decide (c.base.toNat ≤ a) &&
      decide (a < c.base.toNat + c.size)) = true ↔ region := by
    simp [region, Option.any_eq_true]
  have found : ¬beyond → ¬region → s.verdict addr = match s.windowAt a with
      | some w => .window w.policy w.ungrouped
      | none => .default s.params.default := by
    intro notBeyond notRegion
    rw [State.verdict]
    exact (if_neg (mt isBeyond.1 notBeyond)).trans (if_neg (mt isRegion.1 notRegion))
  refine ⟨fun hb => if_pos (isBeyond.2 hb), fun hb hr => ?_, fun w mem hb hr inW unique => ?_,
    fun hb hr outside => ?_⟩
  · exact (if_neg (mt isBeyond.1 hb)).trans (if_pos (isRegion.2 hr))
  · rw [found hb hr, State.windowAt_of_unique mem ((w.covers_iff a).2 inW)
      fun v hv covers => unique v hv ((v.covers_iff a).1 covers)]
  · have none : s.windowAt a = none :=
      List.find?_eq_none.2 fun w hw covers => outside w hw ((w.covers_iff a).1 covers)
    rw [found hb hr, none]

/-! ### TAKE_REQUEST -/

/-- A head request that no hold keeps is classified in OPERATING. -/
theorem State.takeRequest_of_operating (mode : s.mode = .operating) (queue : s.queue = .request r :: rest)
    (room : s.readRoom r = true) (free : s.held r = false) :
    s.takeRequest = (s.takeHead rest).classify s.intake r (rest.contains .linkDownMarker) := by
  simp [State.takeRequest, queue, room, mode, free]

/-- A head request in HALTED. -/
theorem State.takeRequest_of_halted (mode : s.mode = .halted) (queue : s.queue = .request r :: rest)
    (room : s.readRoom r = true) :
    s.takeRequest = (s.takeHead rest).haltedTake s.intake r (rest.contains .linkDownMarker) := by
  simp [State.takeRequest, queue, room, mode]

/-- A held head request stays. -/
theorem State.takeRequest_of_held (mode : s.mode = .operating) (queue : s.queue = .request r :: rest)
    (held : s.held r = true) : s.takeRequest = s := by
  simp [State.takeRequest, queue, mode, held]

/-- Outside OPERATING and HALTED no request is taken. -/
theorem State.takeRequest_of_other (notOperating : s.mode ≠ .operating) (notHalted : s.mode ≠ .halted) :
    s.takeRequest = s := by
  unfold State.takeRequest
  repeat' split
  all_goals simp_all

/-- TAKE_REQUEST in a calm state, up to the end of the event. -/
theorem exec_takeRequest (calm : s.calm) :
    exec .takeRequest s = .next (State.endEvent (State.takeRequest { s with sent := [] })) :=
  State.event_of_calm calm _

/-- Only a read or flush needs a read record. -/
theorem State.readRoom_of_ne (h : r.kind ≠ .read) : s.readRoom r = true := by
  simp [State.readRoom, h]

/-- The malformed writes in words (R9). -/
theorem Request.malformed_iff (kind : r.kind = .write) : r.malformed = true ↔
    64 < r.length ∨ 1 ≤ r.length ∧ 64 < r.addr.toNat % 64 + r.length ∨
      r.close = true ∧ 64 < r.count ∨ r.close = true ∧ r.group = false := by
  simp [Request.malformed, kind, crossesLine, or_assoc]

/-- A malformed request's record, with its charge returned and advertised. -/
theorem State.dropMalformed_eq (mode : s.mode = .operating) (r : Request) :
    s.dropMalformed r =
      { s.recorded { s.record .malformed .operating with
          addr := some r.addr, stream := if r.group then some r.stream else none } with
        credits := s.credits.giveBack true r.charge } := by
  have dropped : s.dropMalformed r =
      { s.recorded { s.record .malformed s.mode with
          addr := some r.addr, stream := if r.group then some r.stream else none } with
        credits := s.credits.giveBack s.mode.advertises r.charge } := rfl
  rw [dropped, mode]
  rfl

/-- Settles O39. -/
theorem malformedRequestIsDropped : Obligations.MalformedRequestIsDropped := by
  unfold Obligations.MalformedRequestIsDropped
  intro s r rest calm mode queue horizon record form
  have free : s.held r = false := by simp [State.held, horizon, record]
  have room : s.readRoom r = true := State.readRoom_of_ne (by
    rcases form with ⟨code, kind⟩ | ⟨kind, _⟩ <;> simp [kind])
  have dropped : ∀ (v : State) (n : Num32) (orphan : Bool),
      v.classify n r orphan = v.dropMalformed r := by
    intro v n orphan
    rcases form with ⟨code, kind⟩ | ⟨kind, form⟩
    · simp [State.classify, kind]
    · simp [State.classify, kind, (Request.malformed_iff kind).2 form]
  rw [exec_takeRequest calm, State.takeRequest_of_operating (by exact mode) (by exact queue)
    (by exact room) (by exact free), dropped, State.dropMalformed_eq (by exact mode)]
  rfl

/-- The verdicts that allow a write without the group flag (R11). -/
theorem Verdict.allowsPass_iff (v : Verdict) : v.allowsPass = true ↔
    (∃ u, v = .window .pass u) ∨ v = .window .journal .pass ∨ v = .default .pass := by
  unfold Verdict.allowsPass
  split <;> simp

/-- A denied write's record, with its charge returned and advertised (R11). -/
theorem State.plainWrite_of_denied (mode : s.mode = .operating) (n : Num32)
    (denied : ¬(s.verdict r.addr).allowsPass = true) :
    s.plainWrite n r =
      { s.recorded { s.record .deniedWrite .operating with addr := some r.addr } with
        credits := s.credits.giveBack true r.charge } := by
  have dropped : s.plainWrite n r =
      { s.recorded { s.record .deniedWrite s.mode with addr := some r.addr } with
        credits := s.credits.giveBack s.mode.advertises r.charge } := if_neg denied
  rw [dropped, mode]
  rfl

/-- Settles O38: no hold and no form error stops the write, so its verdict decides. -/
theorem plainWriteIsStagedOrDenied : Obligations.PlainWriteIsStagedOrDenied := by
  unfold Obligations.PlainWriteIsStagedOrDenied
  intro s r rest calm mode queue horizon kind data short line group close allowed
  have free : s.held r = false := by
    simp [State.held, horizon, State.recordHold, Request.isGroupData, group]
  have room : s.readRoom r = true := State.readRoom_of_ne (by simp [kind])
  have formed : r.malformed = false := by
    rw [← Bool.not_eq_true, Request.malformed_iff kind, close]
    simp
    omega
  have routed : ∀ (v : State) (n : Num32) (orphan : Bool), v.classify n r orphan = v.plainWrite n r := by
    intro v n orphan
    simp [State.classify, kind, formed, State.routeWrite, group, Nat.ne_of_gt data]
  have charge : r.charge = { wh := 1, wd := (r.length + 15) / 16, rd := 0 } := by
    simp [Request.charge, kind, Nat.not_lt.2 short, unitsOf]
  rw [exec_takeRequest calm, State.takeRequest_of_operating (by exact mode) (by exact queue)
    (by exact room) (by exact free), routed]
  refine ⟨fun allows => ?_, fun denies => ?_⟩
  · exact congrArg (fun v => Host.Outcome.next (State.endEvent v))
      (if_pos ((Verdict.allowsPass_iff _).2 allows))
  · rw [State.plainWrite_of_denied (s := State.takeHead { s with sent := [] } rest) mode _
      (mt (Verdict.allowsPass_iff _).1 denies), charge]
    rfl

/-- Settles O45: a hold keeps the request in OPERATING, and other modes but HALTED take none. -/
theorem holdsKeepTheHead : Obligations.HoldsKeepTheHead := by
  unfold Obligations.HoldsKeepTheHead
  intro s r rest calm queue kept
  rw [exec_takeRequest calm]
  rcases kept with ⟨mode, hold⟩ | ⟨notOperating, notHalted⟩
  · have held : s.held r = true := by
      rcases hold with ⟨kind, group, data, idle, full⟩ | ⟨h, horizon, far⟩
      · have noneFree : lowestFree s.groups = none :=
          List.findIdx?_eq_none_iff.2 fun o mem => by
            simpa using Option.isSome_iff_ne_none.2 (full o mem)
        have hold : s.recordHold r = true := by
          simp [State.recordHold, Request.isGroupData, kind, group, idle, noneFree]
          omega
        exact Bool.or_eq_true_iff.2 (.inl hold)
      · have hold : s.horizonHold = true := by
          rw [State.horizonHold, horizon]
          exact decide_eq_true far
        exact Bool.or_eq_true_iff.2 (.inr hold)
    rw [State.takeRequest_of_held (by exact mode) (by exact queue) (by exact held)]
  · rw [State.takeRequest_of_other (by exact notOperating) (by exact notHalted)]

/-! ### The head in HOLDUP and HALTED (R18, R19) -/

/-- A request purged where no limit is advertised: its charge returns to the pools, and a read or flush whose
session lives is answered FAILED (R18). -/
theorem State.purgeItem_request (quiet : s.mode.advertises = false) (orphan : Bool) (r : Request) :
    s.purgeItem orphan (.request r) =
      { s with
        credits := { s.credits with pool := s.credits.pool.add r.charge }
        formed := if r.kind = .read ∧ s.upper.state = .up ∧ orphan = false then
            s.formed ++ [.direct { tag := r.tag, status := .failed, data := [] }]
          else s.formed } := by
  cases kind : r.kind with
  | read =>
    simp only [State.purgeItem, kind, State.failDirect, State.returnCredits_eq s _ quiet, true_and]
    split <;> rfl
  | write => simp [State.purgeItem, kind, State.returnCredits_eq s _ quiet]
  | reserved code => simp [State.purgeItem, kind, State.returnCredits_eq s _ quiet]

/-- HOLDUP_INTAKE purges the head request. -/
theorem exec_holdupIntake (calm : s.calm) (mode : s.mode = .holdup) (queue : s.queue = .request r :: rest) :
    exec .holdupIntake s = .next (State.endEvent
      { s with
        sent := [], queue := rest
        credits := { s.credits with pool := s.credits.pool.add r.charge }
        formed := if r.kind = .read ∧ s.upper.state = .up ∧ rest.contains .linkDownMarker = false then
            s.formed ++ [.direct { tag := r.tag, status := .failed, data := [] }]
          else s.formed }) := by
  have intake : ∀ v : State, v.mode = .holdup → v.queue = .request r :: rest → v.intakeInHoldup =
      State.purgeItem { v with queue := rest } (rest.contains .linkDownMarker) (.request r) := by
    intro v mode queue
    simp [State.intakeInHoldup, mode, queue]
  have event : exec .holdupIntake s =
      .next (State.endEvent (State.intakeInHoldup { s with sent := [] })) := State.event_of_calm calm _
  rw [event, intake _ (by exact mode) (by exact queue),
    State.purgeItem_request (by exact congrArg Mode.advertises mode)]

/-- Settles O47. -/
theorem holdupAndHaltedDropTheHead : Obligations.HoldupAndHaltedDropTheHead := by
  unfold Obligations.HoldupAndHaltedDropTheHead
  constructor
  · intro s r rest calm mode queue credits
    rw [exec_holdupIntake calm mode queue]
    refine ⟨fun kind up live => ?_, fun dropped => ?_⟩
    · rw [if_pos ⟨kind, up, by simpa using live⟩]
    · rw [if_neg]
      rintro ⟨kind, up, live⟩
      rcases dropped with notRead | notUp | ended
      · exact notRead kind
      · exact notUp up
      · simp [ended] at live
  · intro s r rest calm mode queue kind
    have dropped : ∀ (v : State) (n : Num32) (orphan : Bool),
        v.haltedTake n r orphan = v.returnCredits r.charge := by
      intro v n orphan
      unfold State.haltedTake
      split
      · next isRead => exact absurd isRead kind
      · rfl
      · rfl
    rw [exec_takeRequest calm, State.takeRequest_of_halted (by exact mode) (by exact queue)
      (by exact State.readRoom_of_ne kind), dropped, State.endEvent_of_stopped (.inr (by exact mode))]
    have advertises : s.mode.advertises = true := by rw [mode]; rfl
    rw [← advertises]
    rfl

/-! ### The LINK_DOWN marker (R17, R40) -/

/-- The OPEN groups, by stream. -/
theorem State.mem_openGroups {i q : Nat} {g : Group} : (i, q, g) ∈ s.openGroups ↔
    i < Config.streams ∧ (s.stream i).group = some q ∧ s.group? q = some g := by
  simp only [State.openGroups, List.mem_filterMap, List.mem_range, Option.bind_eq_some_iff,
    Option.map_eq_some_iff, Prod.mk.injEq]
  constructor
  · rintro ⟨j, inTable, p, opened, h, found, rfl, rfl, rfl⟩
    exact ⟨inTable, opened, found⟩
  · rintro ⟨inTable, opened, found⟩
    exact ⟨i, inTable, q, opened, g, found, rfl, rfl, rfl⟩

/-- A stream with an OPEN group is one of the part's. -/
theorem State.stream_lt_of_group {i q : Nat} (opened : (s.stream i).group = some q) :
    i < s.streams.length := by
  by_contra outside
  rw [State.stream, List.getD_eq_getElem?_getD, List.getElem?_eq_none (by omega)] at opened
  cases opened

section
variable {v : State} {mode : Mode} {cause : Cause}

/-- A discarded stream. -/
theorem Discarded.of_open (h : Discarded s v mode cause s.openGroups)
    (sized : s.streams.length = Config.streams) (good : ∀ i, s.streamGood i) {i q : Nat}
    (opened : (s.stream i).group = some q) :
    v.group? q = none ∧ v.stream i =
      { group := none, discards := min 255 ((s.stream i).discards + 1), lastCause := some cause } := by
  obtain ⟨g, found, _⟩ := good i q opened
  have inTable := State.stream_lt_of_group opened
  exact h.opened (i, q, g) (State.mem_openGroups.2 ⟨by omega, opened, found⟩)

/-- An IDLE stream is left as it was. -/
theorem Discarded.of_idle (h : Discarded s v mode cause s.openGroups) {i : Nat}
    (idle : (s.stream i).group = none) : v.stream i = s.stream i := by
  refine h.streams i fun p listed e => ?_
  obtain ⟨_, opened, _⟩ := State.mem_openGroups.1 listed
  rw [e, idle] at opened
  cases opened

/-- A group that no stream has OPEN is left as it was. -/
theorem Discarded.of_closed (h : Discarded s v mode cause s.openGroups) {q : Nat}
    (closed : ∀ i, (s.stream i).group ≠ some q) : v.group? q = s.group? q := by
  refine h.groups q fun p listed e => ?_
  obtain ⟨_, opened, _⟩ := State.mem_openGroups.1 listed
  exact closed p.1 (e ▸ opened)

/-- No stream has a group OPEN any longer. -/
theorem Discarded.all_idle (h : Discarded s v mode cause s.openGroups)
    (sized : s.streams.length = Config.streams) (good : ∀ i, s.streamGood i) (i : Nat) :
    (v.stream i).group = none := by
  cases opened : (s.stream i).group with
  | none => rw [h.of_idle opened, opened]
  | some q => rw [(h.of_open sized good opened).2]

end

/-- Settles O46. -/
theorem linkDownMarkerDiscardsOpenGroups : Obligations.LinkDownMarkerDiscardsOpenGroups := by
  unfold Obligations.LinkDownMarkerDiscardsOpenGroups
  intro s rest calm queue
  have event : exec .linkDownMarkerAtHead s =
      .next (State.endEvent (State.takeMarker { s with sent := [] })) := State.event_of_calm calm _
  refine ⟨fun mode sized good => ⟨_, event, ?_⟩, fun stopped => ?_⟩
  · obtain ⟨_, _, sizedStreams, _⟩ := sized
    have taken : State.takeMarker { s with sent := [] } =
        State.discardOpen { s with sent := [], queue := rest } .operating .linkDown := by
      simp only [State.takeMarker, queue, mode]
    have discarded := State.discardOpen_spec { s with sent := [], queue := rest } .operating .linkDown
      sizedStreams good
    rw [← taken] at discarded
    obtain ⟨listed, credits⟩ := discarded.openDiscarded (w := s) rfl (fun _ => rfl) rfl rfl rfl rfl
    have frame := discarded.frame
    refine ⟨by rw [frame], discarded.all_idle sizedStreams good,
      fun i q opened => discarded.of_open sizedStreams good opened, fun i idle => discarded.of_idle idle,
      fun q g found closed => (discarded.of_closed closed).trans found, listed, ?_, ?_⟩
    · rw [credits]
      exact congrArg (fun m => s.credits.giveBack (Mode.advertises m) s.openAmount) mode
    · rw [frame]
      simp
  · have taken : State.takeMarker { s with sent := [] } = { s with sent := [], queue := rest } := by
      rcases stopped with mode | mode <;> simp only [State.takeMarker, queue, mode]
    rw [event, taken]

/-! ### Reads and flushes (R14, R99 to R101) -/

/-- The record a read or flush gets, in a state. -/
def State.readRecordOf (s : State) (n : Num32) (r : Request) (orphan : Bool) (state : ReadState) :
    ReadRecord :=
  { tag := r.tag, kind := s.readKind r, intake := n, orphan := orphan, state := state }

/-- A read or flush that gets record `i`: with a verdict it is DONE at once, an orphan's completion dropped
and the record free again; else it is left HELD or WAITING. -/
theorem State.handRead_eq {i : Nat} (free : lowestFree s.reads = some i) (n : Num32) (r : Request)
    (orphan : Bool) :
    s.handRead n r orphan =
      match s.readVerdict r with
      | some status =>
        if orphan then s.returnCredits { wh := 0, wd := 0, rd := 1 }
        else { s with
          reads := s.reads.set i (some (s.readRecordOf n r false
            (.done { tag := r.tag, status := status, data := [] })))
          formed := s.formed ++ [.record i] }
      | none => { s with
          reads := s.reads.set i (some (s.readRecordOf n r orphan
            (if 1 ≤ r.length then .held else .waiting))) } := by
  obtain ⟨inTable, empty, _⟩ := List.findIdx?_eq_some_iff_getElem.1 free
  have at_i : ∀ (v : State) rec, v.reads = s.reads.set i (some rec) → v.read? i = some rec := by
    intro v rec h
    rw [State.read?, h, getD_set, if_pos ⟨rfl, inTable⟩]
  have unset : s.reads.set i none = s.reads := by
    rw [Option.isNone_iff_eq_none] at empty
    rw [← empty]
    exact List.set_getElem_self inTable
  have untaken : ∀ k b t, s.readKind r ≠ .streamFlush k b (some t) := by
    intro k b t
    unfold State.readKind
    repeat' split
    all_goals simp
  simp only [State.handRead, free]
  cases verdict : s.readVerdict r with
  | none => rfl
  | some status =>
    let placed : State := { s with
      reads := s.reads.set i (some (s.readRecordOf n r orphan (if 1 ≤ r.length then .held else .waiting))) }
    let done : State := { s with
      reads := s.reads.set i (some (s.readRecordOf n r orphan
        (.done { tag := r.tag, status := status, data := [] }))) }
    have modified : placed.modifyRead i (fun rec => { rec with
        state := .done { tag := rec.tag, status := status, data := [] } }) = done := by
      simp only [State.modifyRead, modify_eq_set _ i _ _ (at_i placed _ rfl), placed, done, List.set_set]
      rfl
    show placed.formRead i status [] = _
    rw [State.formRead, at_i placed _ rfl]
    simp only [modified]
    cases orphan with
    | false => rfl
    | true =>
      have dropped : done.dropRead i = done.freeRead i := by
        rw [State.dropRead, at_i done _ rfl]
        dsimp only
        split
        · next taken => exact absurd taken (untaken _ _ _)
        · rfl
      show done.dropRead i = _
      rw [dropped, State.freeRead]
      simp only [done, List.set_set, unset]
      rfl

/-- A tag is in use by a live record that is not DONE with REFUSED (R100). -/
theorem State.duplicateTag_iff (s : State) (tag : UTag) : s.duplicateTag tag = true ↔
    ∃ j rec, s.read? j = some rec ∧ rec.orphan = false ∧ rec.tag = tag ∧
      ∀ c, rec.state = .done c → c.status ≠ .refused := by
  have counted : ∀ rec : ReadRecord, rec.leftOut = false ↔
      rec.orphan = false ∧ ∀ c, rec.state = .done c → c.status ≠ .refused := by
    intro rec
    cases state : rec.state <;> simp [ReadRecord.leftOut, state]
  simp only [State.duplicateTag, List.any_eq_true, Bool.and_eq_true, Bool.not_eq_true', beq_iff_eq,
    counted, Prod.exists, State.mem_liveReads]
  constructor
  · rintro ⟨j, rec, found, ⟨live, open'⟩, same⟩
    exact ⟨j, rec, found, live, same, open'⟩
  · rintro ⟨j, rec, found, live, same, open'⟩
    exact ⟨j, rec, found, ⟨live, open'⟩, same⟩

/-- The malformed reads and flushes in words (R101). -/
theorem Request.readMalformed_iff (r : Request) : r.readMalformed = true ↔
    r.close = true ∨ 1 ≤ r.length ∧ r.length ≤ 64 ∧ r.group = true ∨
      64 < r.length ∨ 1 ≤ r.length ∧ 64 < r.addr.toNat % 64 + r.length := by
  simp [Request.readMalformed, crossesLine, or_assoc, and_assoc]

/-- The verdicts that deny a read (R101). -/
theorem Verdict.allowsRead_eq_false_iff (v : Verdict) : v.allowsRead = false ↔
    v = .beyond ∨ ∃ u, v = .window .closed u := by
  unfold Verdict.allowsRead
  split <;> simp_all

/-- Settles O43: the lowest free record is the one given, and the verdict decides what becomes of it. -/
theorem readGetsARecord : Obligations.ReadGetsARecord := by
  unfold Obligations.ReadGetsARecord
  intro s r rest i calm mode queue kind empty below taken recordKind duplicate malformed denied orphan done
  have free : lowestFree s.reads = some i := by
    obtain ⟨inTable, at_i⟩ := List.getElem?_eq_some_iff.1 empty
    refine List.findIdx?_eq_some_iff_getElem.2 ⟨inTable, by rw [at_i]; rfl, fun j hj => ?_⟩
    obtain ⟨rec, at_j⟩ := below j hj
    obtain ⟨_, at_j⟩ := List.getElem?_eq_some_iff.1 at_j
    rw [at_j]
    simp
  have room : s.readRoom r = true := by simp [State.readRoom, free]
  have advertises : s.mode.advertises = true := by
    rcases mode with ⟨mode, _⟩ | mode <;> rw [mode] <;> rfl
  have contains : rest.contains .linkDownMarker = orphan := List.contains_eq_mem ..
  have handed : exec .takeRequest s = .next (State.endEvent (taken.handRead s.intake r orphan)) := by
    rw [exec_takeRequest calm, ← contains]
    rcases mode with ⟨mode, horizon⟩ | mode
    · have held : s.held r = false := by
        simp [State.held, horizon, State.recordHold, Request.isGroupData, kind]
      rw [State.takeRequest_of_operating (by exact mode) (by exact queue) (by exact room) (by exact held)]
      simp only [State.classify, kind]
      rfl
    · rw [State.takeRequest_of_halted (by exact mode) (by exact queue) (by exact room)]
      simp only [State.haltedTake, kind]
      rfl
  have decided : ∀ status, taken.readVerdict r = some status → exec .takeRequest s = done status := by
    intro status verdict
    rw [handed, State.handRead_eq (by exact free), verdict]
    simp only [done]
    cases orphan with
    | false => rfl
    | true =>
      have back : taken.returnCredits { wh := 0, wd := 0, rd := 1 } =
          { taken with credits := s.credits.giveBack s.mode.advertises { wh := 0, wd := 0, rd := 1 } } :=
        rfl
      rw [if_pos rfl, if_pos rfl, back, advertises]
  have isDuplicate : taken.duplicateTag r.tag = true ↔ duplicate := State.duplicateTag_iff s r.tag
  have isMalformed : r.readMalformed = true ↔ malformed := r.readMalformed_iff
  have isDenied : (1 ≤ r.length ∧ (taken.verdict r.addr).allowsRead = false) ↔ denied :=
    and_congr_right fun _ => Verdict.allowsRead_eq_false_iff (s.verdict r.addr)
  refine ⟨fun halted => decided _ (if_pos halted), fun operating => ?_⟩
  have judged : taken.readVerdict r =
      if taken.duplicateTag r.tag then some .refused
      else if r.readMalformed then some .refused
      else if 1 ≤ r.length ∧ (taken.verdict r.addr).allowsRead = false then some .denied
      else none :=
    if_neg (by show ¬s.mode = .halted; rw [operating]; simp)
  refine ⟨fun refused => decided _ ?_, fun hd hm hv => decided _ ?_, fun hd hm hv => ?_⟩
  · rw [judged]
    by_cases hd : duplicate
    · rw [if_pos (isDuplicate.2 hd)]
    · rw [if_neg (mt isDuplicate.1 hd), if_pos (isMalformed.2 (refused.resolve_left hd))]
  · rw [judged, if_neg (mt isDuplicate.1 hd), if_neg (mt isMalformed.1 hm), if_pos (isDenied.2 hv)]
  · rw [if_neg (mt isDuplicate.1 hd), if_neg (mt isMalformed.1 hm), if_neg (mt isDenied.1 hv)] at judged
    rw [handed, State.handRead_eq (by exact free), judged]
    rfl

end Sys2Proof.Machine
end

section
/-! PROOFS. The end of an event and hold-up (R18, R20, R96, R107 to R115, R143 to R149): the examination of the
waiting flushes, the three parts of the hold-up work, the budget's expiry and the entry into HOLDUP. -/

namespace Sys2Proof.Machine

variable {s : State}

/-! ### Groups not yet committed -/

/-- The states from which recovery is not yet assured. -/
theorem GroupState.uncommitted_iff (g : GroupState) :
    g.uncommitted = true ↔ g = .closed ∨ g = .journaling ∨ g = .committing := by
  cases g <;> simp [GroupState.uncommitted]

/-- The sorted list holds the closed groups not yet committed. -/
theorem State.mem_uncommittedGroups {q : Nat} {g : Group} :
    (q, g) ∈ s.uncommittedGroups ↔ s.group? q = some g ∧ g.Uncommitted := by
  rw [State.uncommittedGroups, List.mem_filter, State.mem_closedGroups, GroupState.uncommitted_iff,
    and_assoc]
  rfl

/-- The journal's hold-up work is complete when no live group is uncommitted (R96). -/
theorem State.journalWorkDone_iff :
    s.journalWorkDone = true ↔ ∀ q g, s.group? q = some g → ¬g.Uncommitted := by
  rw [State.journalWorkDone, List.isEmpty_iff, List.eq_nil_iff_forall_not_mem]
  simp only [Prod.forall, State.mem_uncommittedGroups, not_and]

/-- The first of the uncommitted groups has the lowest serial, the serials lying in one half range. -/
theorem State.uncommittedGroups_head {base : Num32}
    (window : ∀ q h m, s.group? q = some h → h.serial = some m → InWindow base m) {r q : Nat}
    {g h : Group} {n m : Num32} (head : s.uncommittedGroups.head? = some (r, g)) (serial : g.serial = some n)
    (mem : (q, h) ∈ s.uncommittedGroups) (serial' : h.serial = some m) : earlier m n = false := by
  have ordered : Ordered (fun p : Nat × Group => p.2.serial.getD 0#32) s.uncommittedGroups :=
    (State.closedGroups_ordered window).filter _
  obtain ⟨tail, list⟩ := List.head?_eq_some_iff.1 head
  rw [list] at mem ordered
  rcases List.mem_cons.1 mem with same | behind
  · cases same
    rw [serial] at serial'
    cases serial'
    simp [earlier]
  · have notEarlier := (List.pairwise_cons.1 ordered).1 _ behind
    simpa [serial, serial'] using notEarlier

/-! ### The budget's expiry (R147) -/

/-- The end of HOLDUP: what is left of the queue is discarded, and the part is in SAFE (R149; log 37). -/
theorem State.leaveHoldup_eq (quiet : s.mode.advertises = false) :
    s.leaveHoldup =
      { s.queueDiscarded with
        mode := .safe, safeLine := true, budgetTimer := none
        lower := { s.lower with replayTimer := false } } := by
  rw [State.leaveHoldup, State.purgeQueue_eq s quiet]
  rfl

/-- Settles O26. -/
theorem budgetExpiryRecordsAndEntersSafe : Obligations.BudgetExpiryRecordsAndEntersSafe := by
  unfold Obligations.BudgetExpiryRecordsAndEntersSafe
  intro s calm running mode
  refine ⟨?_, fun r g => State.mem_uncommittedGroups, fun base r g n head serial window q h m mem serial' =>
    State.uncommittedGroups_head window head serial mem serial', fun src => rfl⟩
  have expired : ∀ v : State, v.mode = .holdup → v.budgetTimer.isSome = true → v.budgetTimerExpiry =
      { v.queueDiscarded.recorded { v.record .holdupExpired .holdup with
          count := some v.uncommittedGroups.length
          serial := v.uncommittedGroups.head?.bind fun p => p.2.serial } with
        mode := .safe, safeLine := true, budgetTimer := none
        lower := { v.lower with replayTimer := false } } := by
    intro v mode running
    rw [State.budgetTimerExpiry, if_pos running, State.budgetExpiry, if_pos mode,
      State.leaveHoldup_eq (by exact congrArg Mode.advertises mode), State.appendFault, mode]
    rfl
  have event : exec .budgetTimerExpiry s =
      .next (State.endEvent (State.budgetTimerExpiry { s with sent := [] })) := State.event_of_calm calm _
  rw [event, expired _ (by exact mode) (by exact running), State.endEvent_of_stopped (.inl rfl)]
  rfl

/-! ### The examination of the waiting flushes (R107 to R114) -/

/-- What the examination of the flushes can do: records are freed, each with its credit back, completions
formed, discard counts taken or restored. -/
structure State.FlushesSettled (s t : State) : Prop where
  frame : t =
    { s with reads := t.reads, formed := t.formed, streams := t.streams, credits := t.credits }
  freed : ∃ n, t.reads.countP Option.isSome + n = s.reads.countP Option.isSome ∧
    t.credits = s.credits.giveBack s.mode.advertises { wh := 0, wd := 0, rd := n }
  group : ∀ i, (t.stream i).group = (s.stream i).group

namespace State.FlushesSettled

theorem refl (s : State) : s.FlushesSettled s := ⟨rfl, ⟨0, rfl, rfl⟩, fun _ => rfl⟩

theorem trans {a b c : State} (h : a.FlushesSettled b) (k : b.FlushesSettled c) : a.FlushesSettled c := by
  obtain ⟨n, counted, back⟩ := h.freed
  obtain ⟨m, counted', back'⟩ := k.freed
  have mode : b.mode = a.mode := by rw [h.frame]
  refine ⟨k.frame.trans (by rw [h.frame]), ⟨n + m, by omega, ?_⟩, fun i => (k.group i).trans (h.group i)⟩
  rw [back', back, mode, UpperCredits.giveBack_add]
  rfl

/-- A read record in use is changed. -/
theorem modifyRead (s : State) (i : Nat) (f : ReadRecord → ReadRecord) :
    s.FlushesSettled (s.modifyRead i f) :=
  ⟨rfl, ⟨0, countP_isSome_modify s.reads i f, rfl⟩, fun _ => rfl⟩

/-- A discard count changes. -/
theorem modifyStream (s : State) (i : Nat) (f : StreamState → StreamState)
    (keeps : ∀ st, (f st).group = st.group) : s.FlushesSettled (s.modifyStream i f) := by
  refine ⟨rfl, ⟨0, rfl, rfl⟩, fun j => ?_⟩
  rw [State.stream_modifyStream]
  split
  · exact keeps _
  · rfl

/-- A record in use is freed. -/
theorem freeRead {i : Nat} {rec : ReadRecord} (found : s.read? i = some rec) :
    s.FlushesSettled (s.freeRead i) := by
  have at_i : s.reads[i]? = some (some rec) := by
    rw [State.read?, List.getD_eq_getElem?_getD] at found
    cases x : s.reads[i]? <;> simp_all
  exact ⟨rfl, ⟨1, countP_set_add Option.isSome s.reads i none (some rec) at_i, rfl⟩, fun _ => rfl⟩

theorem dropRead (s : State) (i : Nat) : s.FlushesSettled (s.dropRead i) := by
  rw [State.dropRead]
  split
  · exact refl s
  · next found =>
    split
    · exact (freeRead found).trans (modifyStream _ _ _ fun _ => rfl)
    · exact freeRead found

theorem formRead (s : State) (i : Nat) (status : Status) (data : List Byte) :
    s.FlushesSettled (s.formRead i status data) := by
  rw [State.formRead]
  split
  · exact refl s
  · dsimp only
    split
    · exact (modifyRead s i _).trans (dropRead _ i)
    · exact (modifyRead s i _).trans ⟨rfl, ⟨0, rfl, rfl⟩, fun _ => rfl⟩

theorem settleFlush (s : State) (i : Nat) : s.FlushesSettled (s.settleFlush i) := by
  rw [State.settleFlush]
  split
  · exact refl s
  · split
    · dsimp only
      split
      · exact (modifyRead s i _).trans (formRead ..)
      · exact modifyRead s i _
    · split
      · have cleared : ∀ k, s.FlushesSettled (s.clearDiscards k) := fun k =>
          modifyStream s k _ fun _ => rfl
        exact ((cleared _).trans (modifyRead _ i _)).trans (formRead ..)
      · exact refl s
    · exact refl s

theorem foldl (l : List Nat) (s : State) : s.FlushesSettled (l.foldl State.settleFlush s) := by
  induction l generalizing s with
  | nil => exact refl s
  | cons i l ih => exact (settleFlush s i).trans (ih _)

end State.FlushesSettled

/-- A record in DONE is not examined. -/
theorem State.settleFlush_of_done {i : Nat} {rec : ReadRecord} {c : Completion}
    (found : s.read? i = some rec) (done : rec.state = .done c) : s.settleFlush i = s := by
  simp [State.settleFlush, found, done]

/-- The examination leaves a record in DONE as it was. -/
theorem State.settleFlush_foldl_done (l : List Nat) {i : Nat} {rec : ReadRecord} {c : Completion}
    (found : s.read? i = some rec) (done : rec.state = .done c) :
    (l.foldl State.settleFlush s).read? i = some rec := by
  induction l generalizing s with
  | nil => exact found
  | cons j l ih =>
    refine ih ?_
    by_cases same : j = i
    · rw [same, State.settleFlush_of_done found done, found]
    · rw [State.read?_settleFlush_of_ne s same, found]

/-! ### The hold-up work (R66, R96, R144 to R146) -/

/-- A PASS entry is under the redo hold (R58). -/
theorem State.redoHeld_iff (e : Entry) : s.redoHeld e = true ↔ s.UnderRedoHold e := by
  simp only [State.redoHeld, State.redoHeldBy, List.any_eq_true, Bool.and_eq_true, beq_iff_eq,
    State.UnderRedoHold]
  refine exists_congr fun m => and_congr_right fun _ => ?_
  cases kind : m.kind with
  | pass st => simp
  | member r k st =>
    simp only [Bool.true_and, State.closeOf, Option.any_eq_true, Option.bind_eq_some_iff,
      EntryKind.member.injEq]
    constructor
    · rintro ⟨line, c, ⟨g, found, close⟩, before⟩
      exact ⟨r, k, st, g, c, ⟨rfl, rfl, rfl⟩, line, found, close, before⟩
    · rintro ⟨_, _, _, g, c, ⟨rfl, rfl, rfl⟩, line, found, close, before⟩
      exact ⟨line, c, ⟨g, found, close⟩, before⟩

/-- Pass drain's hold-up work in words (R66). -/
theorem State.drainWorkDone_iff : s.drainWorkDone = true ↔
    (∀ e ∈ s.staging.entries, e.isPass = false) ∨
      s.ckpt.flight = none ∧ ∀ e ∈ s.staging.entries, e.isPass = true → s.UnderRedoHold e := by
  simp [State.drainWorkDone, State.passEntries, State.redoHeld_iff, List.filter_eq_nil_iff,
    ← Bool.not_eq_true, imp_iff_not_or]

theorem State.markJournalDone_eq : s.markJournalDone =
    { s with hold := { s.hold with journalDone := s.hold.journalDone || s.journalWorkDone } } := by
  rw [State.markJournalDone]
  cases s.journalWorkDone <;> simp

theorem State.markDrainDone_eq : s.markDrainDone =
    if s.hold.drainDone = false ∧ s.drainWorkDone = true then s.reportDrain else s := by
  rw [State.markDrainDone]
  cases s.hold.drainDone <;> simp

theorem State.markFenceDone_eq : s.markFenceDone =
    { s with hold := { s.hold with
        fenceDone := s.hold.fenceDone || s.hold.target.any (atOrBeyond s.marks.durable) } } := by
  rw [State.markFenceDone]
  cases s.hold.target.any (atOrBeyond s.marks.durable) <;> simp

/-- The three parts of the hold-up work examined. -/
def State.workMarked (s : State) : State := s.markJournalDone.markDrainDone.markFenceDone

/-- The pass drain reports: the entries left are ABANDONED and counted, and the pass target is set (R66). -/
theorem State.workMarked_of_report (pending : s.hold.drainDone = false) (drained : s.drainWorkDone = true) :
    s.workMarked =
      { s with
        hold :=
          { journalDone := s.hold.journalDone || s.journalWorkDone, drainDone := true
            fenceDone := s.hold.fenceDone || atOrBeyond s.marks.durable s.marks.passSend
            target := some s.marks.passSend, abandoned := s.staging.entries.countP Entry.isPass }
        staging := { s.staging with
          entries := s.staging.entries.map fun e =>
            if e.isPass then { e with kind := .pass .abandoned } else e } } := by
  have abandoned : ∀ e : Entry, (if e.isPass then { e with kind := e.kind.toAbandoned } else e) =
      if e.isPass then { e with kind := .pass .abandoned } else e := by
    intro e
    cases kind : e.kind <;> simp [Entry.isPass, kind, EntryKind.toAbandoned]
  have drained' : State.drainWorkDone
      { s with hold := { s.hold with journalDone := s.hold.journalDone || s.journalWorkDone } } = true :=
    drained
  rw [State.workMarked, State.markJournalDone_eq, State.markDrainDone_eq, if_pos ⟨pending, drained'⟩,
    State.markFenceDone_eq]
  simp only [State.reportDrain, State.mapEntries, State.passEntries, abandoned,
    ← List.countP_eq_length_filter, Option.any_some]

/-- The pass drain does not report: the staging store and the pass target stay as they are. -/
theorem State.workMarked_of_no_report (h : ¬(s.hold.drainDone = false ∧ s.drainWorkDone = true)) :
    s.workMarked =
      { s with hold := { s.hold with
          journalDone := s.hold.journalDone || s.journalWorkDone
          fenceDone := s.hold.fenceDone || s.hold.target.any (atOrBeyond s.marks.durable) } } := by
  rw [State.workMarked, State.markJournalDone_eq, State.markDrainDone_eq, if_neg (by exact h),
    State.markFenceDone_eq]

/-- The examination changes the hold-up work and the staging entries alone. -/
theorem State.workMarked_frame (s : State) :
    s.workMarked = { s with hold := s.workMarked.hold, staging := s.workMarked.staging } := by
  by_cases report : s.hold.drainDone = false ∧ s.drainWorkDone = true
  · rw [State.workMarked_of_report report.1 report.2]
  · rw [State.workMarked_of_no_report report]

/-- The end of an event in HOLDUP: the parts are examined, the hold-up ends if they are complete, and the
claims are examined. -/
theorem State.endEvent_of_holdup (mode : s.mode = .holdup) :
    s.endEvent = s.workMarked.finishHoldup.settleClaims := by
  have flushes : s.settleFlushes = s := if_neg (by rw [mode]; simp)
  rw [State.endEvent, flushes, State.settleHoldup, if_pos mode]
  rfl

/-- With its three parts complete the hold-up ends: HOLDUP_DONE, then SAFE (R146, R149). -/
theorem State.finishHoldup_of_complete (mode : s.mode = .holdup)
    (complete : s.workMarked.hold.complete = true) :
    s.workMarked.finishHoldup =
      { s.queueDiscarded.recorded
          { s.record .holdupDone .holdup with count := some s.workMarked.hold.abandoned } with
        mode := .safe, safeLine := true, budgetTimer := none
        lower := { s.lower with replayTimer := false }, hold := s.workMarked.hold
        staging := s.workMarked.staging } := by
  have quiet : (s.workMarked.appendFaultIn .holdup .holdupDone
      { count := some s.workMarked.hold.abandoned }).mode.advertises = false := by
    rw [State.appendFaultIn_mode, s.workMarked_frame]
    exact congrArg Mode.advertises mode
  rw [State.finishHoldup, if_pos complete, State.leaveHoldup_eq quiet, s.workMarked_frame]
  rfl

/-- The end of an event in HOLDUP whose three parts are complete. -/
theorem State.endEvent_of_complete (mode : s.mode = .holdup) (complete : s.workMarked.hold.complete = true) :
    s.endEvent =
      { s.queueDiscarded.recorded
          { s.record .holdupDone .holdup with count := some s.workMarked.hold.abandoned } with
        mode := .safe, safeLine := true, budgetTimer := none
        lower := { s.lower with replayTimer := false }, hold := s.workMarked.hold
        staging := s.workMarked.staging, claims := .none } := by
  rw [s.endEvent_of_holdup mode, State.finishHoldup_of_complete mode complete,
    State.settleClaims_of_none fun _ => rfl]

/-- The end of an event in HOLDUP with a part outstanding: the examination, and the claims. -/
theorem State.endEvent_of_incomplete (mode : s.mode = .holdup)
    (incomplete : s.workMarked.hold.complete = false) : s.endEvent = s.workMarked.settleClaims := by
  rw [s.endEvent_of_holdup mode, State.finishHoldup, incomplete]
  rfl

/-- The three parts are complete. -/
theorem HoldWork.complete_iff (h : HoldWork) : h.complete = true ↔
    h.journalDone = true ∧ h.drainDone = true ∧ h.fenceDone = true := by
  simp [HoldWork.complete, and_assoc]

/-- Whether it completes the hold-up or not, the end of an event in HOLDUP has the work examined. -/
theorem State.endEvent_hold (mode : s.mode = .holdup) :
    s.endEvent.hold = s.workMarked.hold ∧ s.endEvent.staging = s.workMarked.staging := by
  cases complete : s.workMarked.hold.complete with
  | true =>
    rw [s.endEvent_of_complete mode complete]
    exact ⟨rfl, rfl⟩
  | false =>
    rw [s.endEvent_of_incomplete mode complete]
    exact ⟨rfl, rfl⟩

/-- A mark is at or beyond a number (R108). -/
theorem atOrBeyond_iff (x n : Num32) : atOrBeyond x n = true ↔ x = n ∨ earlier n x = true := by
  simp [atOrBeyond]

/-- The claims left by an event are those whose holder has a packet to offer then. -/
theorem State.endEvent_claims (s : State) :
    s.endEvent.claims =
      { wh := s.claims.wh.filter fun src => (s.endEvent.offer src).isSome
        wd := s.claims.wd.filter fun src => (s.endEvent.offer src).isSome
        rd := s.claims.rd.filter fun src => (s.endEvent.offer src).isSome } := by
  have settled : s.settleFlushes.settleHoldup.claims = s.claims := by
    have flushes : s.settleFlushes.claims = s.claims := by
      rw [State.settleFlushes]
      split
      · rw [(State.FlushesSettled.foldl s.readOrder s).frame]
      · rfl
    have holdup : ∀ v : State, v.settleHoldup.claims = v.claims := by
      intro v
      rw [State.settleHoldup]
      split
      · next mode =>
        show v.workMarked.finishHoldup.claims = v.claims
        cases complete : v.workMarked.hold.complete with
        | true => rw [State.finishHoldup_of_complete mode complete]; rfl
        | false => rw [State.finishHoldup, complete, v.workMarked_frame]; rfl
      · rfl
    rw [holdup, flushes]
  have kept : s.endEvent.claims = s.settleFlushes.settleHoldup.claims.keep fun src =>
      (s.endEvent.offer src).isSome := rfl
  rw [kept, settled]
  rfl

/-- Settles O4. -/
theorem eventEndTouchesOnlyStandingConditions : Obligations.EventEndTouchesOnlyStandingConditions := by
  unfold Obligations.EventEndTouchesOnlyStandingConditions
  intro s
  refine ⟨s.endEvent_claims, fun notOperating notHoldup => ?_, fun operating => ?_, fun holdup => ?_⟩
  · rw [State.endEvent_of_idle notOperating notHoldup]
    rfl
  · have settled := State.FlushesSettled.foldl s.readOrder s
    have event := State.endEvent_of_operating operating
    obtain ⟨n, counted, back⟩ := settled.freed
    rw [operating] at back
    refine ⟨?_, ?_, ⟨n, ?_, ?_⟩, fun i => ?_, fun i rec c found done => ?_⟩ <;> rw [event]
    · generalize s.readOrder.foldl State.settleFlush s = v at settled
      exact congrArg (fun x : State => { x with claims := v.settleClaims.claims }) settled.frame
    · exact (State.settleFlush_foldl_frame s.readOrder s).formed
    · exact counted
    · exact back
    · exact settled.group i
    · exact State.settleFlush_foldl_done s.readOrder found done
  · intro t drained reports complete
    have isDrained : s.drainWorkDone = true ↔ drained := State.drainWorkDone_iff
    obtain ⟨hold, staging⟩ := s.endEvent_hold holdup
    have ends : (complete → t = { s.queueDiscarded.recorded
          { s.record .holdupDone .holdup with count := some t.hold.abandoned } with
        mode := .safe, safeLine := true, budgetTimer := none
        lower := { s.lower with replayTimer := false }, hold := t.hold, staging := t.staging
        claims := .none }) ∧
        (¬complete → t = { s with hold := t.hold, staging := t.staging, claims := t.claims }) := by
      have isComplete : s.workMarked.hold.complete = true ↔ complete := by
        rw [HoldWork.complete_iff, ← hold]
      refine ⟨fun done => ?_, fun outstanding => ?_⟩
      · rw [hold, staging]
        exact State.endEvent_of_complete holdup (isComplete.2 done)
      · have event : t = s.workMarked.settleClaims :=
          s.endEvent_of_incomplete holdup (by simpa using mt isComplete.1 outstanding)
        rw [hold, staging, event]
        exact congrArg (fun x : State => { x with claims := s.workMarked.settleClaims.claims })
          s.workMarked_frame
    obtain ⟨done, outstanding⟩ := ends
    by_cases report : s.hold.drainDone = false ∧ s.drainWorkDone = true
    · rw [State.workMarked_of_report report.1 report.2] at hold staging
      have reporting : reports := ⟨report.1, isDrained.1 report.2⟩
      refine ⟨?_, ?_, fun _ => ⟨?_, ?_, staging⟩, fun quiet => absurd reporting quiet, ?_, done, outstanding⟩
      · rw [hold, Bool.or_eq_true, State.journalWorkDone_iff]
      · rw [hold]
        exact ⟨fun _ => .inr reporting.2, fun _ => rfl⟩
      · rw [hold]
      · rw [hold]
      · rw [hold]
        simp [atOrBeyond_iff]
    · rw [State.workMarked_of_no_report report] at hold staging
      have quiet : ¬reports := fun ⟨pending, drains⟩ => report ⟨pending, isDrained.2 drains⟩
      refine ⟨?_, ?_, fun reporting => absurd reporting quiet, fun _ => ⟨?_, ?_, staging⟩, ?_, done, outstanding⟩
      · rw [hold, Bool.or_eq_true, State.journalWorkDone_iff]
      · rw [hold]
        refine ⟨.inl, fun h => h.elim id fun drains => ?_⟩
        by_contra pending
        exact quiet ⟨by simpa using pending, drains⟩
      · rw [hold]
      · rw [hold]
      · rw [hold]
        simp [atOrBeyond_iff, Option.any_eq_true]

end Sys2Proof.Machine
end

section
/-! PROOFS. The entry into HOLDUP (R18, R37, R41, R106, R114, R115, R143): the records fail, the queue is
discarded, then the OPEN groups. -/

namespace Sys2Proof.Machine

variable {s v : State}

/-! ### The three stages of the entry -/

/-- A return where no limit is advertised goes to the pools. -/
theorem UpperCredits.giveBack_quiet (c : UpperCredits) (a : Amount) :
    c.giveBack false a = { c with pool := c.pool.add a } := by
  rw [UpperCredits.giveBack]
  split
  · next none =>
    rw [beq_iff_eq.1 none]
    rfl
  · rfl

/-- The purge of R18 discards the queue, where no limit is advertised. -/
theorem State.purge_eq (quiet : s.mode.advertises = false) : s.purge = s.queueDiscarded := by
  rw [State.purge, State.purgeItems_eq _ _ (by exact quiet)]
  rfl

/-- HOLDUP as it begins: the budget timer runs and the hold-up work is outstanding (R143). -/
def State.holdupBegun (s : State) : State :=
  { s.setMode .holdup with budgetTimer := some s.params.budget, hold := .outstanding }

/-- The entry in three stages. -/
theorem State.enterHoldup_eq (s : State) :
    s.enterHoldup = s.holdupBegun.failReads.queueDiscarded.discardOpen .operating .power := by
  have mode : s.holdupBegun.failReads.mode = .holdup := by
    rw [s.holdupBegun.failReads_spec.frame]
    rfl
  rw [← State.purge_eq (by rw [mode]; rfl)]
  rfl

/-- PFW_N found asserted in OPERATING enters HOLDUP. -/
theorem exec_pfwNAsserted (trained : s.trained) (mode : s.mode = .operating) :
    exec .pfwNAsserted s =
      .next (State.endEvent (State.enterHoldup { s with pfwAsserted := true, sent := [] })) := by
  have begun : State.beginEvent { s with pfwAsserted := true } =
      State.enterHoldup { s with pfwAsserted := true, sent := [] } := by
    rw [State.beginEvent, State.trainPorts_of_trained (by exact trained), State.samplePfw, if_pos rfl]
    simp only [State.pfwTransition, mode]
  show Host.Outcome.next (State.endEvent (State.beginEvent { s with pfwAsserted := true })) = _
  rw [begun]

/-- What the entry into HOLDUP has done, by the state between the failures and the discards. -/
structure State.HoldupEntered (s v u : State) : Prop where
  failed : Failed s.holdupBegun v s.readOrder
  discarded : Discarded v.queueDiscarded u .operating .power v.queueDiscarded.openGroups

theorem State.enterHoldup_spec (sized : s.streams.length = Config.streams)
    (good : ∀ i, s.streamGood i) : ∃ v, s.HoldupEntered v s.enterHoldup := by
  have failed := s.holdupBegun.failReads_spec
  refine ⟨_, failed, ?_⟩
  rw [s.enterHoldup_eq]
  refine State.discardOpen_spec _ _ _ (failed.sizes.trans sized) fun i r opened => ?_
  obtain ⟨g, found, rest⟩ := good i r ((failed.groupOf i).symm.trans opened)
  refine ⟨g, ?_, rest⟩
  have groups : s.holdupBegun.failReads.groups = s.groups := by
    rw [failed.frame]
    rfl
  exact (congrArg (fun l => List.getD l r none) groups).trans found

/-- The records that are not in DONE. -/
theorem ReadRecord.isDone_eq_false_iff (rec : ReadRecord) :
    rec.isDone = false ↔ ∀ c, rec.state ≠ .done c := by
  cases state : rec.state <;> simp [ReadRecord.isDone, state]

/-- A record that is left has its completion. -/
theorem ReadRecord.failed_done {rec after : ReadRecord} (h : rec.failed = some after) :
    ∃ c, after.state = .done c := by
  rw [ReadRecord.failed] at h
  split at h
  · next done =>
    cases h
    cases state : rec.state <;> simp_all [ReadRecord.isDone]
  · split at h
    · cases h
    · cases h
      exact ⟨_, rfl⟩

namespace State.HoldupEntered

variable {u : State}

/-- What the entry leaves as it was. -/
theorem frame (h : s.HoldupEntered v u) : u =
    { s.holdupBegun with
      queue := [], faults := u.faults, faultSeq := u.faultSeq, alert := u.alert, staging := u.staging
      credits := u.credits, streams := u.streams, groups := u.groups, reads := v.reads
      formed := v.formed ++ if s.upper.state = .up then failedAnswers s.queue else []
      tags := v.tags } := by
  refine h.discarded.frame.trans ?_
  rw [State.queueDiscarded]
  rw [h.failed.frame]
  rfl

/-- A group no stream has OPEN keeps its record; the groups the discards begin with are those of `s`. -/
theorem groups (h : s.HoldupEntered v u) : v.queueDiscarded.groups = s.groups := by
  show v.groups = s.groups
  rw [h.failed.frame]
  rfl

theorem group (h : s.HoldupEntered v u) (i : Nat) :
    (v.queueDiscarded.stream i).group = (s.stream i).group := h.failed.groupOf i

theorem sized (h : s.HoldupEntered v u) (sized : s.streams.length = Config.streams) :
    v.queueDiscarded.streams.length = Config.streams := h.failed.sizes.trans sized

theorem good (h : s.HoldupEntered v u) (good : ∀ i, s.streamGood i) (i : Nat) :
    v.queueDiscarded.streamGood i := by
  intro r opened
  rw [h.group] at opened
  rw [State.group?, h.groups]
  exact good i r opened

/-- Every record fails by its own state (R115). -/
theorem read? (h : s.HoldupEntered v u) (i : Nat) :
    u.read? i = (s.read? i).bind ReadRecord.failed := by
  have reads : u.read? i = v.read? i := by
    rw [h.frame]
    rfl
  rw [reads, h.failed.reads]
  show (if i ∈ s.readOrder then (s.read? i).bind ReadRecord.failed else s.read? i) = _
  split
  · rfl
  · next absent =>
    rw [State.mem_readOrder] at absent
    cases found : s.read? i with
    | none => rfl
    | some rec => exact absurd ⟨rec, found⟩ absent

/-- A closed group stays (R143). -/
theorem closed_group (h : s.HoldupEntered v u) (good : ∀ i, s.streamGood i) {r : Nat} {g : Group}
    (found : s.group? r = some g) (closed : g.serial.isSome = true) : u.group? r = some g := by
  rw [h.discarded.of_closed, State.group?, h.groups]
  · exact found
  · intro i opened
    rw [h.group] at opened
    obtain ⟨g', found', _, open'⟩ := good i r opened
    rw [found] at found'
    cases found'
    rw [open'] at closed
    cases closed

/-- An ISSUED read's tag is detached (R115). -/
theorem detached (h : s.HoldupEntered v u) {i t : Nat} {rec : ReadRecord} {info : TagInfo}
    (found : s.read? i = some rec) (issued : rec.state = .issued t) (tag : s.tag t = .outstanding info) :
    u.tag t = .outstanding { info with detached := true } := by
  have tags : u.tag t = v.tag t := by
    rw [h.frame]
    rfl
  rw [tags]
  rcases h.failed.tags t info tag with detached | ⟨_, other⟩
  · exact detached
  · exact absurd issued (other i (State.mem_readOrder.2 ⟨rec, found⟩) rec found)

/-- The records of the discards, and the credits the members of the OPEN groups held, in the words of the
statements for a state `w` with these groups, streams, entries and records (R37, R41). -/
theorem openDiscarded (h : s.HoldupEntered v u) {w : State} (groups : w.groups = s.groups)
    (streams : w.streams = s.streams) (staging : w.staging = s.staging) (faults : w.faults = s.faults)
    (faultSeq : w.faultSeq = s.faultSeq) (alert : w.alert = s.alert) :
    w.OpenDiscarded u .operating .power ∧
      u.credits = v.queueDiscarded.credits.giveBack false w.openAmount := by
  have kept := h.failed.frame
  have holdup : v.queueDiscarded.mode.advertises = false := by
    show v.mode.advertises = false
    rw [kept]
    rfl
  rw [← holdup]
  have group : ∀ i, (w.stream i).group = (v.queueDiscarded.stream i).group := by
    intro i
    rw [h.group, State.stream, streams]
    rfl
  refine h.discarded.openDiscarded (groups.trans h.groups.symm) group ?_ ?_ ?_ ?_ <;>
    simp only [State.queueDiscarded, staging, faults, faultSeq, alert] <;> rw [kept] <;> rfl

/-- The credits that come back: of the orphans dropped, of the queue, of the members freed (R178). -/
theorem credits (h : s.HoldupEntered v u) : u.credits = { s.credits with
    pool := ((s.credits.pool.add { wh := 0, wd := 0, rd := s.reads.countP fun o => o.any fun rec =>
      !rec.isDone && rec.orphan }).add (queueCharge s.queue)).add s.openAmount } := by
  have dropped : (s.readOrder.filter s.holdupBegun.failsOrphan).length =
      s.reads.countP fun o => o.any fun rec => !rec.isDone && rec.orphan :=
    s.readOrder_count fun rec => !rec.isDone && rec.orphan
  have failed : v.credits = { s.credits with
      pool := s.credits.pool.add { wh := 0, wd := 0, rd := s.reads.countP fun o => o.any fun rec =>
        !rec.isDone && rec.orphan } } := by
    rw [h.failed.credits, dropped]
    exact UpperCredits.giveBack_quiet _ _
  have queue : v.queue = s.queue := by
    rw [h.failed.frame]
    rfl
  rw [(h.openDiscarded rfl rfl rfl rfl rfl rfl).2, UpperCredits.giveBack_quiet]
  simp only [State.queueDiscarded, failed, queue]

/-- The streams of the OPEN groups count a discard, where no orphan's dropped flush restores one (R38). -/
theorem stream_of_no_orphan (h : s.HoldupEntered v u) (sized : s.streams.length = Config.streams)
    (good : ∀ i, s.streamGood i) (live : ∀ i rec, s.read? i = some rec → rec.orphan = false) (i : Nat) :
    u.stream i = match (s.stream i).group with
      | none => s.stream i
      | some _ =>
        { group := none, discards := min 255 ((s.stream i).discards + 1), lastCause := some .power } := by
  have streams : v.queueDiscarded.stream i = s.stream i :=
    congrArg (fun l => List.getD l i StreamState.idle) (h.failed.streams live)
  cases opened : (s.stream i).group with
  | none => rw [h.discarded.of_idle (by rw [streams, opened]), streams]
  | some r =>
    rw [(h.discarded.of_open (h.sized sized) (h.good good) (by rw [streams, opened])).2, streams]

end State.HoldupEntered

/-- The records in use stand in the order of their intake numbers. -/
theorem State.readOrder_ordered {base : Num32}
    (window : ∀ i rec, s.read? i = some rec → InWindow base rec.intake) :
    s.readOrder.Pairwise fun i j => ∀ a b, s.read? i = some a → s.read? j = some b →
      earlier b.intake a.intake = false := by
  have ordered : Ordered (fun p : Nat × ReadRecord => p.2.intake)
      (sortByKey (fun p => p.2.intake) s.liveReads) :=
    sortByKey_ordered _ _ fun p mem => window p.1 p.2 (State.mem_liveReads.1 mem)
  rw [State.readOrder, List.pairwise_map]
  refine ordered.imp_of_mem fun {p q} hp hq before a b ha hb => ?_
  have inUse : ∀ x ∈ sortByKey (fun p : Nat × ReadRecord => p.2.intake) s.liveReads,
      s.read? x.1 = some x.2 := fun x hx => State.mem_liveReads.1 ((mem_sortByKey _ _ _).1 hx)
  rw [inUse p hp] at ha
  rw [inUse q hq] at hb
  cases ha
  cases hb
  exact before

/-- Settles O7: the entry's three stages, then the end of the event, which may end the hold-up at once. -/
theorem holdupEntryStopsTheIntake : Obligations.HoldupEntryStopsTheIntake := by
  unfold Obligations.HoldupEntryStopsTheIntake
  constructor
  · intro s trained mode sized good
    obtain ⟨_, _, sizedStreams, _⟩ := sized
    obtain ⟨v, entered⟩ := State.enterHoldup_spec (s := { s with pfwAsserted := true, sent := [] })
      sizedStreams good
    refine ⟨_, exec_pfwNAsserted trained mode, ?_⟩
    generalize State.enterHoldup { s with pfwAsserted := true, sent := [] } = u at entered ⊢
    have idle : ∀ i, (u.stream i).group = none :=
      entered.discarded.all_idle (entered.sized sizedStreams) (entered.good good)
    have done : ∀ i rec, u.read? i = some rec → ∃ c, rec.state = .done c := by
      intro i rec found
      rw [entered.read?, Option.bind_eq_some_iff] at found
      obtain ⟨before, _, after⟩ := found
      exact ReadRecord.failed_done after
    have closed : ∀ r g, s.group? r = some g → g.serial.isSome = true → u.group? r = some g :=
      fun r g => entered.closed_group good
    have limits : u.credits.limit = s.credits.limit ∧ u.credits.consumed = s.credits.consumed := by
      rw [entered.credits]
      exact ⟨rfl, rfl⟩
    have kept : u.intake = s.intake ∧ u.serial = s.serial ∧ u.journal = s.journal ∧ u.apply = s.apply ∧
        u.ckpt = s.ckpt ∧ u.marks = s.marks ∧ u.lowerRetry = s.lowerRetry ∧ u.upper = s.upper := by
      rw [entered.frame]
      exact ⟨rfl, rfl, rfl, rfl, rfl, rfl, rfl, rfl⟩
    have holdup : u.mode = .holdup ∧ u.budgetTimer = some s.params.budget ∧ u.safeLine = false ∧
        u.queue = [] := by
      rw [entered.frame]
      exact ⟨rfl, rfl, rfl, rfl⟩
    obtain ⟨mode, budget, line, queue⟩ := holdup
    cases complete : u.workMarked.hold.complete with
    | true =>
      rw [State.endEvent_of_complete mode complete]
      exact ⟨.inr ⟨rfl, rfl, rfl⟩, rfl, idle, done, closed, limits.1, limits.2, kept⟩
    | false =>
      rw [State.endEvent_of_incomplete mode complete, u.workMarked_frame]
      exact ⟨.inl ⟨mode, budget, line⟩, queue, idle, done, closed, limits.1, limits.2, kept⟩
  · intro s trained mode sized good failing dropped
    obtain ⟨_, _, sizedStreams, _⟩ := sized
    obtain ⟨v, entered⟩ := State.enterHoldup_spec (s := { s with pfwAsserted := true, sent := [] })
      sizedStreams good
    refine ⟨_, exec_pfwNAsserted trained mode, ?_⟩
    generalize State.enterHoldup { s with pfwAsserted := true, sent := [] } = u at entered ⊢
    have frame := entered.frame
    have read : ∀ i, u.read? i = (s.read? i).bind ReadRecord.failed := entered.read?
    have fails : ∀ rec : ReadRecord, rec.isDone = false ↔ failing rec := ReadRecord.isDone_eq_false_iff
    refine ⟨by rw [frame]; rfl, by rw [frame]; rfl, by rw [frame], by rw [frame]; rfl,
      (entered.openDiscarded (w := s) rfl rfl rfl rfl rfl rfl).1, fun i r opened => ?_,
      entered.stream_of_no_orphan sizedStreams good,
      fun i rec found => ⟨fun done => ?_, fun failed orphan => ?_, fun failed live => ?_,
        fun t info issued tag => entered.detached found issued tag⟩, ?_, ?_⟩
    · obtain ⟨freed, stream⟩ := entered.discarded.of_open (entered.sized sizedStreams) (entered.good good)
        ((entered.group i).trans opened)
      exact ⟨by rw [stream], freed⟩
    · have isDone : rec.isDone = true := by simpa using mt (fails rec).1 done
      rw [read, found]
      simp [ReadRecord.failed, isDone]
    · rw [read, found]
      simp [ReadRecord.failed, (fails rec).2 failed, orphan]
    · rw [read, found]
      simp [ReadRecord.failed, (fails rec).2 failed, live]
    · refine ⟨s.readOrder.filter s.failsLive, ?_, s.readOrder_nodup.filter _, fun i => ?_,
        fun base window => (State.readOrder_ordered window).filter _⟩
      · rw [frame, entered.failed.formed]
        rfl
      · rw [List.mem_filter, State.mem_readOrder, State.failsLive, Option.any_eq_true]
        constructor
        · rintro ⟨_, rec, found, live⟩
          simp only [Bool.and_eq_true, Bool.not_eq_true'] at live
          exact ⟨rec, found, (fails rec).1 live.1, live.2⟩
        · rintro ⟨rec, found, failed, live⟩
          exact ⟨⟨rec, found⟩, rec, found, by simp [(fails rec).2 failed, live]⟩
    · rw [entered.credits]
      have counted : dropped =
          s.reads.countP fun o => o.any fun rec => !rec.isDone && rec.orphan := by
        refine congrArg (fun p => s.reads.countP p) (funext fun o => congrArg (fun p => o.any p)
          (funext fun rec => ?_))
        cases state : rec.state <;> simp [ReadRecord.isDone, state]
      rw [counted]
      rfl

end Sys2Proof.Machine
end

section
/-! PROOFS. The end of an upper session (R2, R39, R113, R114, R167, R176, R179): every read record is an orphan,
the formed completions are dropped, and the upper link trains afresh. -/

namespace Sys2Proof.Machine

variable {s v : State}

/-! ### Every record an orphan (R113) -/

/-- A record whose requester's session has ended (R113). -/
def ReadRecord.orphaned (rec : ReadRecord) : ReadRecord := { rec with orphan := true }

/-- The records of `l` marked orphans; every other field is as it was. -/
theorem State.orphanRead_foldl (l : List Nat) (s : State) :
    l.foldl State.orphanRead s = { s with reads := (l.foldl State.orphanRead s).reads } ∧
      ∀ i, (l.foldl State.orphanRead s).read? i =
        if i ∈ l then (s.read? i).map ReadRecord.orphaned else s.read? i := by
  induction l generalizing s with
  | nil => exact ⟨rfl, fun i => by simp⟩
  | cons a l ih =>
    obtain ⟨frame, read⟩ := ih (s.orphanRead a)
    refine ⟨frame, fun i => ?_⟩
    have first : (s.orphanRead a).read? i =
        if a = i then (s.read? i).map ReadRecord.orphaned else s.read? i :=
      State.read?_modifyRead ..
    rw [List.foldl_cons, read, first]
    by_cases same : a = i
    · subst same
      cases s.read? a <;> simp [ReadRecord.orphaned]
    · simp [same, Ne.symm same]

/-- Every record in use marked an orphan. -/
theorem State.orphanRead_liveReads (s : State) :
    ∃ reads, (s.liveReads.map Prod.fst).foldl State.orphanRead s = { s with reads := reads } ∧
      ∀ i, State.read? { s with reads := reads } i = (s.read? i).map ReadRecord.orphaned := by
  obtain ⟨frame, read⟩ := State.orphanRead_foldl (s.liveReads.map Prod.fst) s
  refine ⟨_, frame, fun i => ?_⟩
  rw [← frame, read]
  split
  · rfl
  · next unused =>
    cases found : s.read? i with
    | none => rfl
    | some rec => exact absurd (List.mem_map.2 ⟨_, State.mem_liveReads.2 found, rfl⟩) unused

/-! ### One completion dropped (R39, R114) -/

/-- A dropped record is free; another reads as before. -/
theorem State.read?_dropRead (s : State) (i j : Nat) :
    (s.dropRead i).read? j = if i = j then none else s.read? j := by
  by_cases same : i = j
  · subst same
    rw [if_pos rfl, State.dropRead]
    cases found : s.read? i with
    | none => exact found
    | some rec =>
      have freed : ∀ v : State, v.reads = s.reads.set i none → v.read? i = none := by
        intro v hv
        rw [State.read?, hv, getD_set, if_pos ⟨rfl, lt_length_of_getD found⟩]
      dsimp only
      split <;> exact freed _ rfl
  · rw [if_neg same, State.read?_dropRead_of_ne s same]

/-- Dropping a completion leaves the formed ones to its caller. -/
theorem State.formed_dropRead (s : State) (i : Nat) : (s.dropRead i).formed = s.formed := by
  rw [State.dropRead]
  split
  · rfl
  · split <;> rfl

/-- Record `i` is a stream flush that has taken `t` of stream `k` (R112). -/
def State.HoldsTaken (s : State) (i k : Nat) (t : Taken) : Prop :=
  ∃ rec b, s.read? i = some rec ∧ rec.kind = .streamFlush k b (some t)

/-- A dropped record holds no count, another holds what it held. -/
theorem State.holdsTaken_dropRead {i j k : Nat} {t : Taken} :
    (s.dropRead i).HoldsTaken j k t ↔ i ≠ j ∧ s.HoldsTaken j k t := by
  simp only [State.HoldsTaken, State.read?_dropRead]
  by_cases same : i = j <;> simp [same]

/-- A dropped record that took no count of a stream leaves the stream. -/
theorem State.stream_dropRead_of_untaken {i k : Nat} (untaken : ∀ t, ¬ s.HoldsTaken i k t) :
    (s.dropRead i).stream k = s.stream k := by
  rw [State.dropRead]
  split
  · rfl
  · next rec found =>
    split
    · next st b t kind =>
      have other : st ≠ k := fun same => untaken t ⟨rec, b, found, same ▸ kind⟩
      rw [State.restoreDiscards, State.stream_modifyStream, if_neg (by simp [other])]
      rfl
    · rfl

/-- A stream with a taken count and cause given back (R39). -/
def StreamState.restored (st : StreamState) (t : Taken) : StreamState :=
  { st with discards := min 255 (st.discards + t.count), lastCause := st.lastCause <|> t.cause }

/-- A dropped stream flush gives its count and cause back (R39, R114). -/
theorem State.stream_dropRead_of_taken {i k : Nat} {t : Taken} (taken : s.HoldsTaken i k t)
    (inTable : k < s.streams.length) : (s.dropRead i).stream k = (s.stream k).restored t := by
  obtain ⟨rec, b, found, kind⟩ := taken
  rw [State.dropRead, found]
  simp only [kind]
  rw [State.restoreDiscards, State.stream_modifyStream, if_pos ⟨rfl, inTable⟩]
  rfl

/-! ### Every formed completion dropped (R114) -/

/-- What dropping completions changes, and which records are left. -/
theorem State.dropFormed_foldl (l : List Formed) (s : State) :
    s.FlushesSettled (l.foldl State.dropFormed s) ∧
      (l.foldl State.dropFormed s).formed = s.formed ∧
      ∀ i, (l.foldl State.dropFormed s).read? i = if .record i ∈ l then none else s.read? i := by
  induction l generalizing s with
  | nil => exact ⟨.refl s, rfl, fun i => by simp⟩
  | cons f l ih =>
    obtain ⟨settled, formed, read⟩ := ih (s.dropFormed f)
    cases f with
    | direct c => exact ⟨settled, formed, fun i => (read i).trans (by simp [State.dropFormed])⟩
    | record a =>
      refine ⟨(State.FlushesSettled.dropRead s a).trans settled,
        formed.trans (s.formed_dropRead a), fun i => (read i).trans ?_⟩
      rw [State.dropFormed, State.read?_dropRead]
      by_cases same : a = i
      · simp [same]
      · simp [same, Ne.symm same]

/-- Completions that took no count of a stream leave it. -/
theorem State.stream_dropFormed_foldl_of_untaken {k : Nat} (l : List Formed) (s : State)
    (untaken : ∀ i t, .record i ∈ l → ¬ s.HoldsTaken i k t) :
    (l.foldl State.dropFormed s).stream k = s.stream k := by
  induction l generalizing s with
  | nil => rfl
  | cons f l ih =>
    cases f with
    | direct c => exact ih _ fun i t among => untaken i t (List.mem_cons_of_mem _ among)
    | record a =>
      refine (ih (s.dropRead a) fun i t among taken => ?_).trans
        (State.stream_dropRead_of_untaken fun t => untaken a t List.mem_cons_self)
      exact untaken i t (List.mem_cons_of_mem _ among) (State.holdsTaken_dropRead.1 taken).2

/-- The one completion that took a stream's count gives it back. -/
theorem State.stream_dropFormed_foldl_of_taken {i k : Nat} {t : Taken} (l : List Formed) (s : State)
    (among : .record i ∈ l) (taken : s.HoldsTaken i k t) (inTable : k < s.streams.length)
    (alone : ∀ j t, .record j ∈ l → j ≠ i → ¬ s.HoldsTaken j k t) :
    (l.foldl State.dropFormed s).stream k = (s.stream k).restored t := by
  induction l generalizing s with
  | nil => cases among
  | cons f l ih =>
    have later : ∀ j t, .record j ∈ l → j ≠ i → ¬ s.HoldsTaken j k t :=
      fun j t hj => alone j t (List.mem_cons_of_mem _ hj)
    cases f with
    | direct c => exact ih _ (by simpa using among) taken inTable later
    | record a =>
      by_cases same : a = i
      · subst same
        rw [← State.stream_dropRead_of_taken taken inTable]
        refine State.stream_dropFormed_foldl_of_untaken l _ fun j t hj holds => ?_
        obtain ⟨other, holds⟩ := State.holdsTaken_dropRead.1 holds
        exact later j t hj (Ne.symm other) holds
      · have kept : (s.dropRead a).stream k = s.stream k :=
          State.stream_dropRead_of_untaken fun t => alone a t List.mem_cons_self same
        rw [← kept]
        refine ih (s.dropRead a) (by simpa [Ne.symm same] using among)
          (State.holdsTaken_dropRead.2 ⟨same, taken⟩) ?_ fun j t hj other holds =>
            later j t hj other (State.holdsTaken_dropRead.1 holds).2
        rwa [(s.dropRead_frame a).streams]

/-! ### An upper link DOWN at the read unit (R113, R114) -/

/-- The reads of an ended session: the record of a formed completion is free, every other an orphan; only
a dropped stream flush's stream changes, and the freed records' credits come back. -/
structure State.ReadsOrphaned (s t : State) : Prop where
  frame : ∃ reads streams credits,
    t = { s with reads := reads, formed := [], streams := streams, credits := credits }
  credits : ∃ a, t.credits = s.credits.giveBack s.mode.advertises a
  read : ∀ i, t.read? i =
    if .record i ∈ s.formed then none else (s.read? i).map ReadRecord.orphaned
  untaken : ∀ k, (∀ i t, .record i ∈ s.formed → ¬ s.HoldsTaken i k t) → t.stream k = s.stream k
  taken : ∀ i k a, .record i ∈ s.formed → s.HoldsTaken i k a → k < s.streams.length →
    (∀ j a, .record j ∈ s.formed → j ≠ i → ¬ s.HoldsTaken j k a) →
    t.stream k = (s.stream k).restored a

/-- The orphaning and the dropping. -/
theorem State.readsOrphaned_orphanReads (s : State) : s.ReadsOrphaned s.orphanReads := by
  obtain ⟨reads, orphaning, orphans⟩ := s.orphanRead_liveReads
  let u : State := { s with reads := reads, formed := [] }
  have whole : s.orphanReads = s.formed.reverse.foldl State.dropFormed u := by
    rw [State.orphanReads, orphaning]
  have holds : ∀ i k t, u.HoldsTaken i k t ↔ s.HoldsTaken i k t := by
    intro i k t
    have read : u.read? i = (s.read? i).map ReadRecord.orphaned := orphans i
    rw [State.HoldsTaken, State.HoldsTaken, read]
    cases s.read? i <;> simp [ReadRecord.orphaned]
  obtain ⟨settled, formed, read⟩ := State.dropFormed_foldl s.formed.reverse u
  rw [whole]
  refine ⟨?_, ?_, fun i => ?_, fun k untaken => ?_, fun i k a among taken inTable alone => ?_⟩
  · have emptied : (s.formed.reverse.foldl State.dropFormed u).formed = [] := formed
    exact ⟨_, _, _, settled.frame.trans (by rw [emptied])⟩
  · obtain ⟨n, -, back⟩ := settled.freed
    exact ⟨_, back⟩
  · rw [read, show u.read? i = _ from orphans i]
    simp
  · exact State.stream_dropFormed_foldl_of_untaken _ u fun i t among =>
      (holds i k t).not.2 (untaken i t (by simpa using among))
  · exact State.stream_dropFormed_foldl_of_taken _ u (by simpa using among) ((holds i k a).2 taken)
      inTable fun j t hj other => (holds j k t).not.2 (alone j t (by simpa using hj) other)

/-! ### The upper link DOWN (R167, R179) -/

/-- A return of credits leaves the refresh timer. -/
theorem UpperCredits.refresh_giveBack (c : UpperCredits) (advertises : Bool) (a : Amount) :
    (c.giveBack advertises a).refresh = c.refresh := by
  rw [UpperCredits.giveBack]
  split
  · rfl
  · split <;> rfl

/-- A new session's counts start at 0, and its pools have gone to the limits where the mode advertises
them, else its limits start at 0 (R179). -/
theorem UpperCredits.newSession_spec (c : UpperCredits) (advertises : Bool) :
    (c.newSession advertises).consumed = .zero ∧
      (c.newSession advertises).refresh = c.refresh ∧
      if advertises then (c.newSession advertises).pool = .zero
      else (c.newSession advertises).limit = .zero := by
  cases advertises <;> exact ⟨rfl, rfl, rfl⟩

/-- The upper session of `s` is over: its retry buffer is emptied and the refresh timer stopped (R167). -/
def State.upperLost (s : State) : State :=
  { s with upper := s.upper.atDown, upperRetry := [], credits := { s.credits with refresh := false } }

/-- The upper link DOWN in one step: the reads, the queue's marker, the record and the new training. -/
theorem State.upperDown_eq (s : State) :
    ∃ t, s.upperLost.ReadsOrphaned t ∧
      s.upperDown = { t with
        queue := if s.queue.getLast? = some .linkDownMarker then s.queue
          else s.queue ++ [.linkDownMarker]
        upper := s.upper.restarted
        credits := t.credits.newSession s.mode.advertises
        sent := s.sent ++ [.unit .upper (.init .train false
          (t.credits.newSession s.mode.advertises).limit)]
        faults := pushFault s.faults { s.record .upperLinkDown s.mode with
          link := some .upper, count := some s.upperRetry.length }
        faultSeq := s.faultSeq + 1#16
        alert := true } := by
  have orphaned := s.upperLost.readsOrphaned_orphanReads
  refine ⟨_, orphaned, ?_⟩
  obtain ⟨reads, streams, credits, left⟩ := orphaned.frame
  unfold State.upperLost at left
  simp only [State.upperDown, State.upperLost, left]
  split <;> rfl

/-- An upper session ends the same way whatever its last event has sent, recorded and counted at the
port. -/
theorem State.upperSessionEnded_upperDown {before : State} (port : Port) (sent : List Sent)
    (faults : List FaultRecord) (faultSeq : BitVec 16) (alert : Bool)
    (held : port.heldDown = s.upper.heldDown) (recorded : before.faults = faults)
    (counted : before.faultSeq = faultSeq) :
    State.UpperSessionEnded s before (State.upperDown
      { s with upper := port, sent := sent, faults := faults, faultSeq := faultSeq, alert := alert }) := by
  subst recorded counted
  obtain ⟨t, orphaned, ended⟩ := State.upperDown_eq { s with
    upper := port, sent := sent, faults := before.faults, faultSeq := before.faultSeq, alert := alert }
  rw [ended]
  obtain ⟨⟨reads, streams, left, rfl⟩, ⟨back, credits⟩, read, untaken, taken⟩ := orphaned
  have refresh : left.refresh = false := by
    rw [show left = _ from credits, UpperCredits.refresh_giveBack]
    rfl
  obtain ⟨consumed, kept, given⟩ := left.newSession_spec s.mode.advertises
  refine ⟨?_, rfl, rfl, fun i rec found => ?_, rfl, consumed, kept.trans refresh, given, ?_, rfl, rfl,
    rfl, rfl, rfl, rfl, rfl, rfl, rfl, rfl, fun i among => (read i).trans (if_pos among),
    fun i rec apart found => ?_, fun k none => untaken k ?_,
    fun i rec k b a among found kind inTable alone => ?_⟩
  · simp only [Port.restarted, held]
  · have used := (read i).symm.trans found
    split at used
    · cases used
    · obtain ⟨rec', -, rfl⟩ := Option.map_eq_some_iff.1 used
      rfl
  · simp
  · exact (read i).trans ((if_neg apart).trans (congrArg (Option.map ReadRecord.orphaned) found))
  · rintro i a among ⟨rec, b, found, kind⟩
    exact none i rec b a among found kind
  · refine taken i k a among ⟨rec, b, found, kind⟩ inTable ?_
    rintro j a' among' other ⟨rec', b', found', kind'⟩
    exact alone j rec' b' a' among' other found' kind'

/-! ### The three ends of a session (O9) -/

/-- A request beyond the advertised credits that the port accepts. -/
theorem State.upperSessionEnded_creditOverrun {bytes : List Byte} (calm : s.calm)
    (up : s.upper.state = .up) (good : frameGood .upper bytes = true)
    (seq : frameSeq bytes = s.upper.expRx) (request : isCompletion bytes = false)
    (beyond : (Request.charge (parseRequest bytes)).fits
      (unconsumed s.credits.limit s.credits.consumed) = false) :
    EffectOf (.transactionPacket .upper bytes) s fun u =>
      State.UpperSessionEnded s
        (s.recorded { s.record .creditOverrun s.mode with
          addr := some (parseRequest bytes).addr, link := some .upper }) u := by
  have expected : (frameSeq bytes - s.upper.expRx).toNat = 0 := by
    rw [seq, BitVec.sub_self]
    rfl
  obtain ⟨sent, port, accepted, held⟩ : ∃ sent port,
      State.acceptPacket { s with sent := [] } .upper (frameSeq bytes) =
        { s with sent := sent, upper := port } ∧ port.heldDown = s.upper.heldDown := by
    simp only [State.acceptPacket]
    split <;> exact ⟨_, _, rfl, rfl⟩
  have received : exec (.transactionPacket .upper bytes) s =
      .next (State.endEvent (State.creditOverrun { s with sent := sent, upper := port }
        (parseRequest bytes))) := by
    simp only [exec, execTransactionPacket, State.event_of_calm calm, State.judgePacket, State.port,
      up, good, State.consume, request, expected, accepted, State.receiveRequest, beyond, if_true,
      Bool.false_eq_true, if_false]
  exact ⟨_, received, State.upperSessionEnded_upperDown port sent _ _ _ held rfl rfl⟩

/-- The partner's restart in UP or RETRAIN takes the upper link DOWN (R157). -/
theorem State.handleInit_restart {limits : Limits}
    (opened : s.upper.state = .up ∨ s.upper.state = .retrain) :
    s.handleInit .upper .train false limits = s.upperDown := by
  have port : (s.port .upper).state = s.upper.state := rfl
  unfold State.handleInit
  rcases opened with h | h <;> rw [port, h] <;> rfl

/-- Settles O9, by the one account of what an upper link DOWN leaves. -/
theorem upperLinkDownEndsTheSession : Obligations.UpperLinkDownEndsTheSession := by
  unfold Obligations.UpperLinkDownEndsTheSession
  refine ⟨fun bytes s calm up good seq request beyond =>
    State.upperSessionEnded_creditOverrun calm up good seq request beyond, ?_⟩
  intro c s calm ends
  have whole : exec c s = .next (State.endEvent (State.upperDown { s with sent := [] })) := by
    rcases ends with ⟨bytes, limits, rfl, parsed, opened⟩ | ⟨rfl, timer, retrain⟩
    · simp only [exec, execInit, State.event_of_calm calm, parsed, State.receiveUnit, onInit]
      rw [State.handleInit_restart (by exact opened)]
    · simp only [exec, execTrainingTimerExpiry, State.event_of_calm calm, State.trainingExpiry,
        State.port, timer, retrain, if_true, State.linkDown]
  exact ⟨_, whole, State.upperSessionEnded_upperDown s.upper [] _ _ _ rfl rfl rfl⟩

end Sys2Proof.Machine
end

section
/-! PROOFS. Group writes and closes (R10, R28 to R38): what a data-carrying group write does at the record of
its stream's group, and how a close is judged there or on an IDLE stream. -/

namespace Sys2Proof.Machine

variable {s : State} {r : Request} {rest : List QueueItem} {i k : Nat} {g : Group} {n : Num32}

/-! ### A write that no hold keeps -/

/-- The head request has left the queue, in an event that has sent nothing (R3). -/
def State.headTaken (s : State) (rest : List QueueItem) : State :=
  { s with sent := [], queue := rest, intake := s.intake + 1#32 }

/-- A well-formed write that no hold keeps is routed (R8 to R13). -/
theorem exec_takeRequest_write (calm : s.calm) (mode : s.mode = .operating)
    (queue : s.queue = .request r :: rest) (horizon : s.horizonHold = false)
    (free : s.recordHold r = false) (kind : r.kind = .write) (formed : r.malformed = false) :
    exec .takeRequest s = .next (State.endEvent ((s.headTaken rest).routeWrite s.intake r)) := by
  have held : s.held r = false := by simp [State.held, horizon, free]
  have room : s.readRoom r = true := State.readRoom_of_ne (by simp [kind])
  have routed : ∀ (v : State) (n : Num32) (orphan : Bool), v.classify n r orphan = v.routeWrite n r := by
    intro v n orphan
    simp [State.classify, kind, formed]
  rw [exec_takeRequest calm, State.takeRequest_of_operating (by exact mode) (by exact queue)
    (by exact room) (by exact held), routed]
  rfl

/-- The charge of a write of at most 64 bytes (R176). -/
theorem Request.charge_of_write (kind : r.kind = .write) (short : r.length ≤ 64) :
    r.charge = { wh := 1, wd := (r.length + 15) / 16, rd := 0 } := by
  simp [Request.charge, kind, Nat.not_lt.2 short, unitsOf]

/-- Credits that come back in OPERATING are advertised (R178). -/
theorem State.returnCredits_of_operating (mode : s.mode = .operating) (a : Amount) :
    s.returnCredits a = { s with credits := s.credits.giveBack true a } := by
  rw [State.returnCredits, mode]
  rfl

/-- A zero-length write returns its header credit, and with both flags is a close without data (R10). -/
theorem exec_zeroWrite (calm : s.calm) (mode : s.mode = .operating)
    (queue : s.queue = .request r :: rest) (horizon : s.horizonHold = false) (kind : r.kind = .write)
    (empty : r.length = 0) (flags : r.close = true → r.group = true ∧ r.count ≤ 64) :
    exec .takeRequest s = .next (State.endEvent
      (let v : State := { s.headTaken rest with
        credits := s.credits.giveBack true { wh := 1, wd := 0, rd := 0 } }
      if r.close then v.close s.intake r else v)) := by
  have free : s.recordHold r = false := by simp [State.recordHold, Request.isGroupData, empty]
  have formed : r.malformed = false := by
    rw [← Bool.not_eq_true, Request.malformed_iff kind, empty]
    cases close : r.close with
    | false => simp
    | true => simp [flags close]
  rw [exec_takeRequest_write calm mode queue horizon free kind formed, State.routeWrite, if_pos empty,
    State.zeroWrite, Request.charge_of_write kind (by omega), empty,
    State.returnCredits_of_operating (by exact mode)]
  cases close : r.close with
  | false => simp; rfl
  | true => simp [flags close]; rfl

/-! ### The empty close (R34) -/

/-- A close without data on an IDLE stream that expected members is counted as a discard. -/
theorem State.close_of_idle (idle : (s.stream r.stream).group = none) (mode : s.mode = .operating) :
    s.close n r =
      if r.count = 0 then s
      else
        { s.recorded { s.record .tallyMismatch .operating with
            stream := some r.stream, count := some 0 } with
          streams := s.streams.modify r.stream fun st =>
            { st with discards := min 255 (st.discards + 1), lastCause := some .tallyMismatch } } := by
  simp only [State.close, idle, State.emptyClose, State.appendFault]
  split
  · rfl
  · rw [State.modifyStream_mode, mode]
    rfl

/-- Settles O40. -/
theorem zeroLengthWriteIsConsumed : Obligations.ZeroLengthWriteIsConsumed := by
  unfold Obligations.ZeroLengthWriteIsConsumed
  intro s r rest calm mode queue horizon kind empty flags taken
  have whole := exec_zeroWrite calm mode queue horizon kind empty flags
  refine ⟨fun noClose => ?_, fun close idle => ?_⟩
  · rw [whole, noClose]
    rfl
  · have judged : exec .takeRequest s = .next (State.endEvent (taken.close s.intake r)) := by
      rw [whole, close]
      rfl
    rw [judged, State.close_of_idle (s := taken) idle mode]
    refine ⟨fun nothing => by rw [if_pos nothing], fun members => ?_⟩
    rw [if_neg (by omega)]
    rfl

/-! ### The record of a stream's OPEN group -/

/-- The state with `g` in record `i` as the OPEN group of stream `k`. -/
def State.withOpen (s : State) (k i : Nat) (g : Group) : State :=
  { s with
    groups := s.groups.set i (some g)
    streams := s.streams.modify k fun st => { st with group := some i } }

/-- The record a group write of `r` finds its group in, or opens it in: the stream's OPEN group, else a fresh
one in the lowest free record (R28). -/
def State.Finds (s : State) (r : Request) (i : Nat) (g : Group) : Prop :=
  (s.stream r.stream).group = some i ∧ s.group? i = some g ∨
    (s.stream r.stream).group = none ∧ lowestFree s.groups = some i ∧ g = .fresh r.stream

/-- A stream's OPEN group stands there already. -/
theorem State.withOpen_of_open (opened : (s.stream k).group = some i) (found : s.group? i = some g) :
    s.withOpen k i g = s := by
  have groups : s.groups.set i (some g) = s.groups := by
    have inTable := lt_length_of_getD found
    rw [State.group?, List.getD_eq_getElem?_getD, List.getElem?_eq_getElem inTable] at found
    rw [← show s.groups[i] = some g from found]
    exact List.set_getElem_self inTable
  have streams : (s.streams.modify k fun st => { st with group := some i }) = s.streams := by
    have inTable := State.stream_lt_of_group opened
    rw [State.stream, List.getD_eq_getElem?_getD, List.getElem?_eq_getElem inTable] at opened
    refine (List.modify_eq_set_get _ inTable).trans ?_
    rw [← show s.streams[k].group = some i from opened]
    exact List.set_getElem_self inTable
  rw [State.withOpen, groups, streams]

/-- The record reads as put. -/
theorem State.group?_withOpen (inTable : i < s.groups.length) :
    (s.withOpen k i g).group? i = some g := by
  rw [State.group?, State.withOpen, getD_set, if_pos ⟨rfl, inTable⟩]

/-- The stream has the record OPEN. -/
theorem State.stream_withOpen (inTable : k < s.streams.length) :
    ((s.withOpen k i g).stream k).group = some i := by
  simp [State.stream, State.withOpen, inTable]

/-- A free record with none free below it is the lowest free one. -/
theorem lowestFree_eq {α : Type} {table : List (Option α)} (empty : table[i]? = some none)
    (below : ∀ j, j < i → ∃ a, table[j]? = some (some a)) : lowestFree table = some i := by
  obtain ⟨inTable, at_i⟩ := List.getElem?_eq_some_iff.1 empty
  refine List.findIdx?_eq_some_iff_getElem.2 ⟨inTable, by rw [at_i]; rfl, fun j hj => ?_⟩
  obtain ⟨a, at_j⟩ := below j hj
  obtain ⟨_, at_j⟩ := List.getElem?_eq_some_iff.1 at_j
  rw [at_j]
  simp

/-- The record found is one of the part's. -/
theorem State.Finds.inTable (h : s.Finds r i g) : i < s.groups.length := by
  rcases h with ⟨_, found⟩ | ⟨_, free, _⟩
  · exact lt_length_of_getD found
  · obtain ⟨inTable, _⟩ := List.findIdx?_eq_some_iff_getElem.1 free
    exact inTable

/-- A write that finds its record is not held for one (R8). -/
theorem State.Finds.recordHold (h : s.Finds r i g) : s.recordHold r = false := by
  rcases h with ⟨opened, _⟩ | ⟨_, free, _⟩
  · simp [State.recordHold, opened]
  · simp [State.recordHold, free]

/-- The write is judged as a member of the group it finds or opens (R28, R29). -/
theorem State.Finds.groupData (h : s.Finds r i g) (inJournal : Bool) :
    s.groupData n r inJournal = (s.withOpen r.stream i g).memberWrite n r inJournal i g := by
  rcases h with ⟨opened, found⟩ | ⟨idle, free, rfl⟩
  · rw [State.withOpen_of_open opened found]
    simp [State.groupData, opened, found]
  · simp only [State.groupData, idle, free]
    rfl

/-! ### Members and fault causes (R29 to R31) -/

/-- The verdicts of a JOURNAL window (R13, R30). -/
theorem Verdict.isJournal_iff (v : Verdict) : v.isJournal = true ↔ ∃ u, v = .window .journal u := by
  unfold Verdict.isJournal
  split <;> simp_all

/-- The fault cause a group has, or else takes from a write (R30, R31). -/
def Group.causeAt (g : Group) (v : Verdict) (r : Request) : Option Cause :=
  g.fault <|> faultCheck v.isJournal r g.count

/-- A write becomes a member of a group without a cause, in a JOURNAL window, not poisoned, while there is
room (R29, R30). -/
theorem Group.causeAt_eq_none_iff (g : Group) (v : Verdict) (r : Request) : g.causeAt v r = none ↔
    g.fault = none ∧ (∃ u, v = .window .journal u) ∧ r.poison = false ∧ g.count < 64 := by
  rw [← Verdict.isJournal_iff]
  cases fault : g.fault with
  | some cause => simp [Group.causeAt, fault]
  | none =>
    cases journal : v.isJournal with
    | false => simp [Group.causeAt, fault, faultCheck, journal]
    | true =>
      cases poison : r.poison with
      | true => simp [Group.causeAt, fault, faultCheck, journal, poison]
      | false =>
        by_cases full : 64 ≤ g.count
        · simp [Group.causeAt, fault, faultCheck, journal, poison, Config.maxMembers, full]
        · simp [Group.causeAt, fault, faultCheck, journal, poison, Config.maxMembers, full]
          omega

/-- The cause a write meets is the group's own, else the first check that fails (R30, R31). -/
theorem Group.causeAt_eq_some_iff (g : Group) (v : Verdict) (r : Request) (cause : Cause) :
    g.causeAt v r = some cause ↔
      g.fault = some cause ∨
        g.fault = none ∧
          (¬(∃ u, v = .window .journal u) ∧ cause = .stray ∨
            (∃ u, v = .window .journal u) ∧ r.poison = true ∧ cause = .poisoned ∨
            (∃ u, v = .window .journal u) ∧ r.poison = false ∧ 64 ≤ g.count ∧ cause = .oversize) := by
  rw [← Verdict.isJournal_iff]
  cases fault : g.fault with
  | some own => simp [Group.causeAt, fault]
  | none =>
    cases journal : v.isJournal with
    | false => simp [Group.causeAt, fault, faultCheck, journal, eq_comm (b := cause)]
    | true =>
      cases poison : r.poison with
      | true => simp [Group.causeAt, fault, faultCheck, journal, poison, eq_comm (b := cause)]
      | false =>
        by_cases full : 64 ≤ g.count <;>
          simp [Group.causeAt, fault, faultCheck, journal, poison, Config.maxMembers, full,
            eq_comm (b := cause)]

/-- The staging store with a group write as the next member of a record (R47, R49). -/
def State.memberStaged (s : State) (n : Num32) (r : Request) (i index : Nat) : Staging :=
  { entries := s.staging.entries ++
      [{ intake := n, addr := r.addr, length := r.length, data := r.data
         kind := .member i index .held, poison := false }]
    freeEntries := s.staging.freeEntries - 1
    freeUnits := s.staging.freeUnits - (r.length + 15) / 16 }

/-- Changing the OPEN group's record is putting the changed group there. -/
theorem State.modifyGroup_withOpen (inTable : i < s.groups.length) (f : Group → Group) :
    (s.withOpen k i g).modifyGroup i f = s.withOpen k i (f g) := by
  have changed := modify_eq_set _ i g f (State.group?_withOpen (k := k) inTable)
  rw [State.modifyGroup, changed]
  simp only [State.withOpen, List.set_set]

/-- A group write has left the queue and been judged at record `i`, where it finds the group `g`. -/
def State.writeJudged (s : State) (rest : List QueueItem) (r : Request) (i : Nat) (g : Group) : State :=
  ((s.headTaken rest).withOpen r.stream i g).memberWrite s.intake r (s.verdict r.addr).isJournal i g

/-- A write that meets no fault cause is staged as the next member (R29). -/
theorem State.writeJudged_of_clean (inTable : i < s.groups.length)
    (clean : g.causeAt (s.verdict r.addr) r = none) :
    s.writeJudged rest r i g =
      { (s.headTaken rest).withOpen r.stream i (g.addMember r.addr) with
        staging := s.memberStaged s.intake r i g.count } := by
  rw [Group.causeAt] at clean
  simp only [State.writeJudged, State.memberWrite, clean]
  exact congrArg (fun v : State => { v with staging := s.memberStaged s.intake r i g.count })
    (State.modifyGroup_withOpen (s := s.headTaken rest) inTable _)

/-- A write that meets a fault cause is dropped with its credits returned (R31). -/
theorem State.writeJudged_of_fault {cause : Cause} (mode : s.mode = .operating)
    (inTable : i < s.groups.length) (met : g.causeAt (s.verdict r.addr) r = some cause) :
    s.writeJudged rest r i g =
      { (s.headTaken rest).withOpen r.stream i (g.dropWrite cause r.addr) with
        credits := s.credits.giveBack true r.charge } := by
  rw [Group.causeAt] at met
  simp only [State.writeJudged, State.memberWrite, met]
  rw [State.modifyGroup_withOpen (s := s.headTaken rest) inTable,
    State.returnCredits_of_operating (by exact mode)]
  rfl

/-- A group write of 1 to 64 bytes within one line is judged at the record it finds, and then closes the
group if it carries the close flag (R28 to R33). -/
theorem exec_groupWrite (calm : s.calm) (mode : s.mode = .operating)
    (queue : s.queue = .request r :: rest) (horizon : s.horizonHold = false) (kind : r.kind = .write)
    (data : 1 ≤ r.length) (short : r.length ≤ 64) (line : r.addr.toNat % 64 + r.length ≤ 64)
    (group : r.group = true) (count : r.close = true → r.count ≤ 64) (finds : s.Finds r i g) :
    exec .takeRequest s = .next (State.endEvent
      (if r.close then (s.writeJudged rest r i g).close s.intake r else s.writeJudged rest r i g)) := by
  have formed : r.malformed = false := by
    rw [← Bool.not_eq_true, Request.malformed_iff kind, group]
    rintro (long | ⟨_, crosses⟩ | ⟨close, many⟩ | ⟨_, ungrouped⟩)
    · omega
    · omega
    · have := count close
      omega
    · cases ungrouped
  have found : (s.headTaken rest).Finds r i g := finds
  rw [exec_takeRequest_write calm mode queue horizon finds.recordHold kind formed, State.routeWrite,
    if_neg (by omega), if_pos group, State.groupWrite, found.groupData]
  rfl

/-- Settles O41: the write is judged at its stream's OPEN group, or at the fresh one it opens. -/
theorem groupWriteJoinsOrOpensAGroup : Obligations.GroupWriteJoinsOrOpensAGroup := by
  unfold Obligations.GroupWriteJoinsOrOpensAGroup
  constructor
  · intro s r rest i g calm mode queue horizon kind data short line group noClose opened found
      inJournal sig
    have finds : s.Finds r i g := .inl ⟨opened, found⟩
    have whole := exec_groupWrite calm mode queue horizon kind data short line group
      (by simp [noClose]) finds
    have streams : (s.streams.modify r.stream fun st => { st with group := some i }) = s.streams :=
      congrArg State.streams (State.withOpen_of_open opened found)
    have taken : ∀ g', (s.headTaken rest).withOpen r.stream i g' =
        { s.headTaken rest with groups := s.groups.set i (some g') } := fun g' =>
      congrArg (fun l => { s.headTaken rest with groups := s.groups.set i (some g'), streams := l })
        streams
    rw [whole, if_neg (by simp [noClose])]
    refine ⟨fun unfaulted journal unpoisoned room => ?_, fun cause met => ?_⟩
    · have clean := (g.causeAt_eq_none_iff _ r).2 ⟨unfaulted, journal, unpoisoned, room⟩
      rw [State.writeJudged_of_clean finds.inTable clean, taken]
      rfl
    · have met := (g.causeAt_eq_some_iff _ r cause).2 met
      rw [State.writeJudged_of_fault mode finds.inTable met, taken, Request.charge_of_write kind short]
      rfl
  · intro s r rest i calm mode queue horizon kind data short line group noClose idle empty below
      inJournal opened taken
    have finds : s.Finds r i (.fresh r.stream) := .inr ⟨idle, lowestFree_eq empty below, rfl⟩
    have whole := exec_groupWrite calm mode queue horizon kind data short line group
      (by simp [noClose]) finds
    have signed : signWrite 0#16 r.addr = BitVec.ofNat 16 (lineOf r.addr) := BitVec.zero_add _
    have member : (Group.fresh r.stream).addMember r.addr = opened := by
      simp only [Group.addMember, Group.fresh, signed, opened]
      rfl
    have dropped : ∀ cause, (Group.fresh r.stream).dropWrite cause r.addr =
        { opened with members := [], fault := some cause } := fun cause => by
      simp only [Group.dropWrite, Group.fresh, signed, opened]
      rfl
    rw [whole, if_neg (by simp [noClose])]
    refine ⟨fun journal unpoisoned => ?_, fun cause met => ?_⟩
    · have clean := (Group.causeAt_eq_none_iff (.fresh r.stream) _ r).2
        ⟨rfl, journal, unpoisoned, Nat.zero_lt_succ _⟩
      rw [State.writeJudged_of_clean finds.inTable clean, member]
      rfl
    · have met := (Group.causeAt_eq_some_iff (.fresh r.stream) _ r cause).2
        (.inr ⟨rfl, met.imp_right .inl⟩)
      rw [State.writeJudged_of_fault mode finds.inTable met, dropped,
        Request.charge_of_write kind short]
      rfl

/-! ### Closes (R33 to R38) -/

/-- The cause a close discards its group with, if any: the group's own, else a tally that differs (R35). -/
def Group.closeCause (g : Group) (r : Request) : Option Cause :=
  g.fault <|> if g.count = r.count ∧ g.sig = r.sig then none else some .tallyMismatch

/-- A group without a cause whose tally matches closes (R35). -/
theorem Group.closeCause_eq_none (unfaulted : g.fault = none) (count : g.count = r.count)
    (sig : g.sig = r.sig) : g.closeCause r = none := by
  simp [Group.closeCause, unfaulted, count, sig]

/-- A group without a cause whose tally differs does not close (R35). -/
theorem Group.closeCause_of_mismatch (unfaulted : g.fault = none)
    (differs : g.count ≠ r.count ∨ g.sig ≠ r.sig) : g.closeCause r = some .tallyMismatch := by
  have differs : ¬(g.count = r.count ∧ g.sig = r.sig) := by tauto
  simp [Group.closeCause, unfaulted, differs]

/-- A group with a cause is discarded with it (R35). -/
theorem Group.closeCause_of_fault {cause : Cause} (fault : g.fault = some cause) :
    g.closeCause r = some cause := by
  simp [Group.closeCause, fault]

/-- The state with the OPEN group of stream `k` in record `i` closed at intake `n` (R36). -/
def State.withClosed (s : State) (k i : Nat) (g : Group) (serial n : Num32) : State :=
  { s with
    serial := some (serial + 1#32)
    groups := s.groups.set i (some
      { g with state := .closed, serial := some serial, closeIntake := some n })
    streams := s.streams.modify k fun st => { st with group := none }
    journal := { s.journal with queue := s.journal.queue ++ [i] } }

/-- The state with the OPEN group of stream `k` in record `i`, of `count` writes, discarded (R37, R38). -/
def State.withDiscarded (s : State) (k i count : Nat) (cause : Cause) : State :=
  let out := s.staging.entries.filter (Entry.inRecord i)
  { s.recorded { s.record cause .operating with stream := some k, count := some count } with
    staging :=
      { entries := s.staging.entries.filter fun e => !e.inRecord i
        freeEntries := s.staging.freeEntries + out.length
        freeUnits := s.staging.freeUnits + totalUnits out }
    credits := s.credits.giveBack true { wh := out.length, wd := totalUnits out, rd := 0 }
    groups := s.groups.set i none
    streams := s.streams.modify k fun st =>
      { group := none, discards := min 255 (st.discards + 1), lastCause := some cause } }

/-- The close of an OPEN group (R36). -/
theorem State.closeGroup_withOpen {serial : Num32} (counter : s.serial = some serial)
    (inTable : i < s.groups.length) (stream : g.stream = k) :
    (s.withOpen k i g).closeGroup n i g = s.withClosed k i g serial n := by
  subst stream
  have counter' : (s.withOpen g.stream i g).serial = some serial := counter
  have changed : State.modifyGroup { s.withOpen g.stream i g with serial := some (serial + 1#32) } i
      (fun g => { g with state := .closed, serial := some serial, closeIntake := some n }) =
      { s.withOpen g.stream i { g with
          state := .closed, serial := some serial, closeIntake := some n } with
        serial := some (serial + 1#32) } :=
    State.modifyGroup_withOpen (s := { s with serial := some (serial + 1#32) }) inTable _
  simp only [State.closeGroup, counter']
  rw [changed]
  simp only [State.modifyStream, State.withOpen, List.modify_modify_eq]
  rfl

/-- The discard of an OPEN group (R37, R38). -/
theorem State.discard_withOpen (mode : s.mode = .operating) (inTable : i < s.groups.length)
    (stream : g.stream = k) (cause : Cause) :
    (s.withOpen k i g).discard .operating cause i = s.withDiscarded k i g.count cause := by
  have advertises : s.mode.advertises = true := by
    rw [mode]
    rfl
  rw [State.discard, State.group?_withOpen inTable]
  simp only [State.freeGroup, State.modifyStream, State.freeEntriesBy, State.withOpen,
    State.returnCredits, State.appendFaultIn, List.modify_modify_eq, List.set_set, stream, advertises]
  rfl

/-- A close at its stream's OPEN group is judged there (R35). -/
theorem State.close_withOpen (mode : s.mode = .operating) (inTable : i < s.groups.length)
    (inStreams : r.stream < s.streams.length) (stream : g.stream = r.stream) :
    (s.withOpen r.stream i g).close n r =
      match g.closeCause r with
      | none => (s.withOpen r.stream i g).closeGroup n i g
      | some cause => s.withDiscarded r.stream i g.count cause := by
  have judged : (s.withOpen r.stream i g).close n r =
      (s.withOpen r.stream i g).judgeClose n r i g := by
    simp only [State.close, State.stream_withOpen inStreams, State.group?_withOpen inTable]
  have mode' : (s.withOpen r.stream i g).mode = .operating := mode
  rw [judged, State.judgeClose, Group.closeCause]
  cases g.fault with
  | some own =>
    simp only [mode', State.discard_withOpen mode inTable stream]
    rfl
  | none =>
    by_cases tally : g.count = r.count ∧ g.sig = r.sig
    · simp [tally]
    · simp [tally, mode', State.discard_withOpen mode inTable stream]

/-- With no cause against it the group closes under the next serial (R36). -/
theorem State.close_withOpen_of_tally {serial : Num32} (mode : s.mode = .operating)
    (counter : s.serial = some serial) (inTable : i < s.groups.length)
    (inStreams : r.stream < s.streams.length) (stream : g.stream = r.stream)
    (clean : g.closeCause r = none) :
    (s.withOpen r.stream i g).close n r = s.withClosed r.stream i g serial n := by
  rw [State.close_withOpen mode inTable inStreams stream, clean]
  exact State.closeGroup_withOpen counter inTable stream

/-- With a cause against it the group is discarded (R37). -/
theorem State.close_withOpen_of_cause {cause : Cause} (mode : s.mode = .operating)
    (inTable : i < s.groups.length) (inStreams : r.stream < s.streams.length)
    (stream : g.stream = r.stream) (met : g.closeCause r = some cause) :
    (s.withOpen r.stream i g).close n r = s.withDiscarded r.stream i g.count cause := by
  rw [State.close_withOpen mode inTable inStreams stream, met]

/-- What a discard leaves, in the words of the statement. -/
theorem State.effectOf_withDiscarded {v : State} {count : Nat} {cause : Cause}
    (whole : exec .takeRequest s = .next (State.endEvent (v.withDiscarded k i count cause)))
    (mode : v.mode = .operating) :
    EffectOf .takeRequest s fun u =>
      let out := v.staging.entries.filter fun e => e.inRecord i
      let units := (out.map fun e => (e.length + 15) / 16).sum
      u.staging =
          { entries := v.staging.entries.filter fun e => !e.inRecord i
            freeEntries := v.staging.freeEntries + out.length
            freeUnits := v.staging.freeUnits + units } ∧
        u.credits = v.credits.giveBack true { wh := out.length, wd := units, rd := 0 } ∧
        u.groups = v.groups.set i none ∧
        u.streams = (v.streams.modify k fun st =>
          { group := none, discards := min 255 (st.discards + 1), lastCause := some cause }) ∧
        u.faults = pushFault v.faults
          { v.record cause .operating with stream := some k, count := some count } ∧
        u.serial = v.serial ∧ u.journal = v.journal ∧ u.mode = .operating ∧ u.queue = v.queue ∧
        u.intake = v.intake :=
  ⟨_, whole, rfl, rfl, rfl, rfl, rfl, rfl, rfl, mode, rfl, rfl⟩

/-- Settles O42: a close without data is judged on the group its stream has OPEN, one with data on the group
that its own write leaves there. -/
theorem closeIsJudged : Obligations.CloseIsJudged := by
  unfold Obligations.CloseIsJudged
  constructor
  · intro s r rest i g serial calm mode queue horizon kind empty group close count opened found stream
      counter
    have inTable : i < s.groups.length := lt_length_of_getD found
    have inStreams : r.stream < s.streams.length := State.stream_lt_of_group opened
    let taken : State := { s.headTaken rest with
      credits := s.credits.giveBack true { wh := 1, wd := 0, rd := 0 } }
    have whole : exec .takeRequest s = .next (State.endEvent
        ((taken.withOpen r.stream i g).close s.intake r)) := by
      rw [exec_zeroWrite calm mode queue horizon kind empty fun _ => ⟨group, count⟩, if_pos close,
        State.withOpen_of_open (s := taken) opened found]
    refine ⟨fun unfaulted tally sig => ?_, fun cause met => ?_⟩
    · have clean := Group.closeCause_eq_none unfaulted tally sig
      rw [whole, State.close_withOpen_of_tally (s := taken) mode counter inTable inStreams stream clean]
      rfl
    · have met : g.closeCause r = some cause := by
        rcases met with fault | ⟨unfaulted, differs, rfl⟩
        · exact Group.closeCause_of_fault fault
        · exact Group.closeCause_of_mismatch unfaulted differs
      rw [State.close_withOpen_of_cause (s := taken) mode inTable inStreams stream met] at whole
      exact State.effectOf_withDiscarded whole mode
  · intro s r rest i g serial calm mode queue horizon kind data short line group close count counter
      inStreams finds inJournal sig clean entry discarded staged
    have stream : g.stream = r.stream := by
      rcases finds with ⟨_, _, stream⟩ | ⟨_, _, _, rfl⟩
      · exact stream
      · rfl
    have finds : s.Finds r i g := finds.imp (fun ⟨opened, found, _⟩ => ⟨opened, found⟩)
      fun ⟨idle, empty, below, fresh⟩ => ⟨idle, lowestFree_eq empty below, fresh⟩
    have whole : exec .takeRequest s =
        .next (State.endEvent ((s.writeJudged rest r i g).close s.intake r)) := by
      rw [exec_groupWrite calm mode queue horizon kind data short line group (fun _ => count) finds,
        if_pos close]
    -- the state and the group that the write leaves for the close to be judged on
    let member : State := { s.headTaken rest with staging := staged }
    let dropped : State := { s.headTaken rest with credits := s.credits.giveBack true r.charge }
    have joins : clean → s.writeJudged rest r i g = member.withOpen r.stream i (g.addMember r.addr) :=
      fun isClean => State.writeJudged_of_clean finds.inTable ((g.causeAt_eq_none_iff _ r).2 isClean)
    refine ⟨fun isClean tally signed => ?_, fun isClean differs => ?_, fun cause met => ?_⟩
    · have closes : (g.addMember r.addr).closeCause r = none :=
        Group.closeCause_eq_none isClean.1 tally signed
      rw [whole, joins isClean, State.close_withOpen_of_tally (s := member) (g := g.addMember r.addr)
        mode counter finds.inTable inStreams stream closes]
      rfl
    · have fails : (g.addMember r.addr).closeCause r = some .tallyMismatch :=
        Group.closeCause_of_mismatch isClean.1 differs
      rw [joins isClean, State.close_withOpen_of_cause (s := member) (g := g.addMember r.addr) mode
        finds.inTable inStreams stream fails] at whole
      exact State.effectOf_withDiscarded whole mode
    · have met := (g.causeAt_eq_some_iff _ r cause).2 met
      have drops : s.writeJudged rest r i g =
          dropped.withOpen r.stream i (g.dropWrite cause r.addr) :=
        State.writeJudged_of_fault mode finds.inTable met
      have fails : (g.dropWrite cause r.addr).closeCause r = some cause := Group.closeCause_of_fault rfl
      rw [drops, State.close_withOpen_of_cause (s := dropped) (g := g.dropWrite cause r.addr) mode
        finds.inTable inStreams stream fails] at whole
      rw [← Request.charge_of_write kind short]
      exact State.effectOf_withDiscarded whole mode

end Sys2Proof.Machine
end

section
/-! PROOFS. Completions formed and flushes examined (R39, R105 to R114): what a completion formed does to its
record, for the requester or for an orphan, and when a flush that waits has its condition met. -/

namespace Sys2Proof.Machine

variable {s v : State} {i j k : Nat} {rec : ReadRecord} {bound target : Option Num32}
  {taken : Option Taken}

/-! ### A completion formed (R105, R106, R114) -/

/-- The record in DONE with a completion for its tag (R106). -/
def ReadRecord.completed (rec : ReadRecord) (status : Status) (data : List Byte) : ReadRecord :=
  { rec with state := .done { tag := rec.tag, status := status, data := data } }

/-- Changing a read record in use is putting the changed record there. -/
theorem State.modifyRead_eq_set (found : s.read? i = some rec) (f : ReadRecord → ReadRecord) :
    s.modifyRead i f = { s with reads := s.reads.set i (some (f rec)) } := by
  rw [State.modifyRead, modify_eq_set s.reads i rec f found]

/-- A record put in place of one in use reads as put; another reads as before. -/
theorem State.read?_of_set {o : Option ReadRecord} (found : s.read? i = some rec)
    (put : v.reads = s.reads.set i o) (j : Nat) : v.read? j = if i = j then o else s.read? j := by
  have inTable : i < s.reads.length := lt_length_of_getD found
  rw [State.read?, put, getD_set]
  by_cases same : i = j
  · rw [if_pos ⟨same, same ▸ inTable⟩, if_pos same]
  · rw [if_neg fun both => same both.1, if_neg same, State.read?]

/-- The requester's completion joins the formed ones (R106). -/
theorem State.formRead_of_live (found : s.read? i = some rec) (live : rec.orphan = false)
    (status : Status) (data : List Byte) :
    s.formRead i status data =
      { s with
        reads := s.reads.set i (some (rec.completed status data))
        formed := s.formed ++ [.record i] } := by
  simp only [State.formRead, found, State.modifyRead_eq_set found]
  rw [if_neg (by simp [live])]
  rfl

/-- The streams with the count that a record of this kind took given back, if it took one (R39). -/
def ReadKind.givenBack : ReadKind → List StreamState → List StreamState
  | .read _ _, streams => streams
  | .globalFlush _ _, streams => streams
  | .streamFlush _ _ none, streams => streams
  | .streamFlush k _ (some t), streams => streams.modify k fun st => st.restored t

/-- An orphan's completion is dropped: its record is free, its read credit returns, and a count it took goes
back to the stream (R39, R114). -/
theorem State.formRead_of_orphan (found : s.read? i = some rec) (orphan : rec.orphan = true)
    (status : Status) (data : List Byte) :
    s.formRead i status data =
      { s with
        reads := s.reads.set i none
        credits := s.credits.giveBack s.mode.advertises { wh := 0, wd := 0, rd := 1 }
        streams := rec.kind.givenBack s.streams } := by
  have placed : State.read? { s with reads := s.reads.set i (some (rec.completed status data)) } i =
      some (rec.completed status data) := by
    rw [State.read?_of_set found rfl, if_pos rfl]
  have formed : s.formRead i status data =
      State.dropRead { s with reads := s.reads.set i (some (rec.completed status data)) } i := by
    simp only [State.formRead, found, State.modifyRead_eq_set found]
    rw [if_pos orphan]
    rfl
  obtain ⟨tag, kind, intake, orphan, state⟩ := rec
  simp only [ReadRecord.completed] at formed placed
  simp only [formed, State.dropRead, placed, State.freeRead, State.returnCredits, List.set_set]
  cases kind with
  | read addr length => rfl
  | globalFlush bound target => rfl
  | streamFlush k bound taken => cases taken <;> rfl

/-! ### The module's answer to a requester read (R105, R184) -/

/-- The completion a module's answer forms, the read having asked for `length` bytes (R105, R184). -/
theorem answered_completion (a : Answer) (length : Nat) (rec : ReadRecord) :
    rec.completed (answerStatus (checkForm a length).status) (answerData (checkForm a length)) =
      { rec with
        state := .done
          (if a.status = .ok ∧ a.data.length = length then
            { tag := rec.tag, status := .ok, data := a.data }
          else if a.status = .poisoned ∧ a.data.length = length then
            { tag := rec.tag, status := .poisoned, data := a.data }
          else { tag := rec.tag, status := .failed, data := [] }) } := by
  obtain ⟨status, data⟩ := a
  by_cases fits : data.length = length <;> cases status <;>
    simp [checkForm, ModStatus.isError, answerStatus, answerData, ReadRecord.completed, fits]

/-- Settles O12: the answer reaches the record its tag names, which has its completion. -/
theorem readAnswerFormsTheCompletion : Obligations.ReadAnswerFormsTheCompletion := by
  unfold Obligations.ReadAnswerFormsTheCompletion
  intro bytes s info i rec addr length calm up good seq completion tag purpose ref attached notSafe
    notHalted found kind
  have answered : s.Answered bytes info := ⟨calm, up, good, seq, completion, tag, attached⟩
  obtain ⟨sent, lower, retry, tags, whole, ended⟩ := answered.exec notSafe notHalted
  let v : State := { s with sent := sent, lower := lower, lowerRetry := retry, tags := tags }
  have found' : v.read? i = some rec := found
  have asked : v.readLength info = length := by simp [State.readLength, ref, found', kind]
  have handed : v.handOn info (parseAnswer bytes) =
      v.formRead i (answerStatus (checkForm (parseAnswer bytes) length).status)
        (answerData (checkForm (parseAnswer bytes) length)) := by
    simp only [State.handOn, purpose, asked, State.handRecordRead, ref, State.answerRead]
  rw [handed] at whole
  refine ⟨fun orphan => ?_, fun live => ?_⟩
  · rw [State.formRead_of_orphan found' orphan, kind] at whole
    refine ⟨_, whole, ?_, rfl, rfl, rfl, ended _ rfl, fun q other => ?_, rfl, rfl⟩
    · rw [State.read?_of_set (s := v) found' rfl, if_pos rfl]
    · rw [State.read?_of_set (s := v) found' rfl, if_neg (Ne.symm other)]
      rfl
  · rw [State.formRead_of_live found' live, answered_completion] at whole
    refine ⟨_, whole, ?_, rfl, ended _ rfl, fun q other => ?_, rfl, rfl, rfl, rfl, rfl, rfl, rfl, rfl,
      rfl, rfl⟩
    · rw [State.read?_of_set (s := v) found' rfl, if_pos rfl]
    · rw [State.read?_of_set (s := v) found' rfl, if_neg (Ne.symm other)]
      rfl

/-! ### One flush examined (R107 to R112) -/

/-- A record that does not wait is not examined. -/
theorem State.settleFlush_of_not_waiting (found : s.read? i = some rec) (moved : rec.state ≠ .waiting) :
    s.settleFlush i = s := by
  simp only [State.settleFlush, found]
  split
  · next waiting _ => exact absurd waiting moved
  · next waiting _ => exact absurd waiting moved
  · rfl

/-- A global flush has its condition met: no group before its bound is uncommitted, and the durable mark has
reached its pass target (R107, R108, R110). -/
def State.GlobalMet (s : State) (n : Num32) (bound target : Option Num32) : Prop :=
  s.FlushGroupsSafe (fun _ => True) bound ∧
    ∃ m, s.flushTarget n target = some m ∧ (s.marks.durable = m ∨ earlier m s.marks.durable = true)

/-- The condition of a global flush in words. -/
theorem State.globalMet_iff {n : Num32} :
    (s.groupsSafe (fun _ => true) bound &&
        (s.flushTarget n target).any (atOrBeyond s.marks.durable)) = true ↔
      s.GlobalMet n bound target := by
  simp only [Bool.and_eq_true, State.groupsSafe_iff, Option.any_eq_true, atOrBeyond_iff]
  rfl

/-- A global flush with the pass target it has now (R108). -/
def State.aimed (s : State) (rec : ReadRecord) (bound target : Option Num32) : ReadRecord :=
  { rec with kind := .globalFlush bound (s.flushTarget rec.intake target) }

/-- A waiting global flush is given its pass target, and completes with OK where its condition is met. -/
theorem State.settleFlush_of_global [Decidable (s.GlobalMet rec.intake bound target)]
    (found : s.read? i = some rec) (waiting : rec.state = .waiting)
    (kind : rec.kind = .globalFlush bound target) :
    let v : State := { s with reads := s.reads.set i (some (s.aimed rec bound target)) }
    s.settleFlush i =
      if s.GlobalMet rec.intake bound target then v.formRead i .ok [] else v := by
  intro v
  have placed : s.modifyRead i (fun rec' => { rec' with
      kind := .globalFlush bound (s.flushTarget rec.intake target) }) = v :=
    State.modifyRead_eq_set found _
  have condition : (v.groupsSafe (fun _ => true) bound &&
      (s.flushTarget rec.intake target).any (atOrBeyond v.marks.durable)) = true ↔
      s.GlobalMet rec.intake bound target := State.globalMet_iff
  simp only [State.settleFlush, found, waiting, kind, placed, condition]

/-- What a stream flush of stream `k` would take (R39). -/
def State.toTake (s : State) (k : Nat) : Taken :=
  { count := (s.stream k).discards, cause := (s.stream k).lastCause }

/-- The record of a stream flush that has taken its stream's count and cause (R112). -/
def State.taking (s : State) (rec : ReadRecord) (k : Nat) (bound : Option Num32) : ReadRecord :=
  { rec with kind := .streamFlush k bound (some (s.toTake k)) }

/-- That record in DONE, with the count and cause as its data (R112). -/
def State.takenDone (s : State) (rec : ReadRecord) (k : Nat) (bound : Option Num32) : ReadRecord :=
  (s.taking rec k bound).completed (if (s.stream k).discards = 0 then .ok else .lost)
    [BitVec.ofNat 8 (s.stream k).discards, BitVec.ofNat 8 (causeCode (s.stream k).lastCause), 0#8, 0#8]

/-- A stream with its count and cause taken (R39). -/
def StreamState.cleared (st : StreamState) : StreamState := { st with discards := 0, lastCause := none }

/-- A stream flush with an uncommitted group of its stream to wait for stays as it is (R111). -/
theorem State.settleFlush_of_stream_unmet (found : s.read? i = some rec)
    (kind : rec.kind = .streamFlush k bound taken)
    (unmet : ¬s.FlushGroupsSafe (fun st => st = k) bound) : s.settleFlush i = s := by
  have condition : s.groupsSafe (· == k) bound = false := by
    rw [← Bool.not_eq_true, State.groupsSafe_iff]
    simpa using unmet
  by_cases waiting : rec.state = .waiting
  · simp [State.settleFlush, found, waiting, kind, condition]
  · exact State.settleFlush_of_not_waiting found waiting

/-- A stream flush with no group to wait for takes its stream's count (R112). -/
theorem State.settleFlush_of_stream_met (found : s.read? i = some rec) (waiting : rec.state = .waiting)
    (kind : rec.kind = .streamFlush k bound taken) (met : s.FlushGroupsSafe (fun st => st = k) bound) :
    s.settleFlush i = s.takeStreamFlush i k bound := by
  have condition : s.groupsSafe (· == k) bound = true := by
    rw [State.groupsSafe_iff]
    simpa using met
  simp [State.settleFlush, found, waiting, kind, condition]

/-- A take: the count and cause leave the stream for the record, which then has its completion (R112). -/
theorem State.takeStreamFlush_eq (found : s.read? i = some rec) :
    let v : State := { s with
      reads := s.reads.set i (some (s.taking rec k bound))
      streams := s.streams.modify k StreamState.cleared }
    v.read? i = some (s.taking rec k bound) ∧
      s.takeStreamFlush i k bound =
        v.formRead i (if (s.stream k).discards = 0 then .ok else .lost) (takenBytes (s.toTake k)) := by
  intro v
  have found' : (s.clearDiscards k).read? i = some rec := found
  refine ⟨by rw [State.read?_of_set (v := v) found rfl, if_pos rfl], ?_⟩
  rw [State.takeStreamFlush, State.modifyRead_eq_set found']
  rfl

/-- The requester's stream flush is DONE with what it took (R112). -/
theorem State.takeStreamFlush_of_live (found : s.read? i = some rec) (live : rec.orphan = false) :
    s.takeStreamFlush i k bound =
      { s with
        reads := s.reads.set i (some (s.takenDone rec k bound))
        formed := s.formed ++ [.record i]
        streams := s.streams.modify k StreamState.cleared } := by
  obtain ⟨placed, taken⟩ := State.takeStreamFlush_eq (k := k) (bound := bound) found
  rw [taken, State.formRead_of_live placed live]
  simp only [List.set_set]
  rfl

/-- An orphaned stream flush takes its stream's count and gives it back (R39, R114). -/
theorem State.takeStreamFlush_of_orphan (found : s.read? i = some rec) (orphan : rec.orphan = true) :
    s.takeStreamFlush i k bound =
      { s with
        reads := s.reads.set i none
        credits := s.credits.giveBack s.mode.advertises { wh := 0, wd := 0, rd := 1 }
        streams := (s.streams.modify k StreamState.cleared).modify k fun st =>
          st.restored (s.toTake k) } := by
  obtain ⟨placed, taken⟩ := State.takeStreamFlush_eq (k := k) (bound := bound) found
  rw [taken, State.formRead_of_orphan placed orphan]
  simp only [List.set_set]
  rfl

/-- An examination touches no stream but the one whose flush it examines. -/
theorem State.stream_settleFlush_of_other
    (other : ∀ rec b t, s.read? i = some rec → rec.state = .waiting → rec.kind ≠ .streamFlush k b t) :
    (s.settleFlush i).stream k = s.stream k := by
  classical
  cases found : s.read? i with
  | none => simp [State.settleFlush, found]
  | some rec =>
    by_cases waiting : rec.state = .waiting
    · cases kind : rec.kind with
      | read addr length => simp [State.settleFlush, found, waiting, kind]
      | globalFlush bound target =>
        rw [State.settleFlush_of_global found waiting kind]
        split
        · have placed : State.read? { s with
              reads := s.reads.set i (some (s.aimed rec bound target)) } i =
              some (s.aimed rec bound target) := by rw [State.read?_of_set found rfl, if_pos rfl]
          cases orphan : rec.orphan with
          | false =>
            rw [State.formRead_of_live placed orphan]
            rfl
          | true =>
            rw [State.formRead_of_orphan placed orphan]
            rfl
        · rfl
      | streamFlush q bound taken =>
        have apart : q ≠ k := fun same => other rec bound taken found waiting (same ▸ kind)
        have untouched : ∀ (l : List StreamState) (f : StreamState → StreamState),
            (l.modify q f).getD k .idle = l.getD k .idle := fun l f => by
          simp [List.getD_eq_getElem?_getD, apart]
        by_cases met : s.FlushGroupsSafe (fun st => st = q) bound
        · rw [State.settleFlush_of_stream_met found waiting kind met]
          cases orphan : rec.orphan with
          | false =>
            rw [State.takeStreamFlush_of_live found orphan]
            exact untouched _ _
          | true =>
            rw [State.takeStreamFlush_of_orphan found orphan]
            exact (untouched _ _).trans (untouched _ _)
        · rw [State.settleFlush_of_stream_unmet found kind met]
    · rw [State.settleFlush_of_not_waiting found waiting]

/-- Several examinations touch no stream but those whose flushes they examine. -/
theorem State.stream_settleFlush_foldl_of_other (l : List Nat) (s : State) (nodup : l.Nodup)
    (other : ∀ j ∈ l, ∀ rec b t, s.read? j = some rec → rec.state = .waiting →
      rec.kind ≠ .streamFlush k b t) :
    (l.foldl State.settleFlush s).stream k = s.stream k := by
  induction l generalizing s with
  | nil => rfl
  | cons j l ih =>
    obtain ⟨new, nodup⟩ := List.nodup_cons.1 nodup
    rw [List.foldl_cons, ih _ nodup, State.stream_settleFlush_of_other (other j List.mem_cons_self)]
    intro q mem rec b t found
    have apart : j ≠ q := fun same => new (same ▸ mem)
    rw [State.read?_settleFlush_of_ne s apart] at found
    exact other q (List.mem_cons_of_mem j mem) rec b t found

/-! ### The conditions in the course of the examination -/

/-- An examination changes no flush's group condition. -/
theorem State.FlushFrame.flushGroupsSafe (h : s.FlushFrame v) {p : Nat → Prop} :
    v.FlushGroupsSafe p bound ↔ s.FlushGroupsSafe p bound := by
  simp only [State.FlushGroupsSafe, State.group?, h.groups]

/-- An examination changes no pass target that a flush would have. -/
theorem State.FlushFrame.flushTarget (h : s.FlushFrame v) (n : Num32) :
    v.flushTarget n target = s.flushTarget n target := by
  cases target with
  | some m => rfl
  | none =>
    simp only [State.flushTarget, State.passBefore, h.staging, h.marks]
    rfl

/-- An examination changes no global flush's condition. -/
theorem State.FlushFrame.globalMet (h : s.FlushFrame v) {n : Num32} :
    v.GlobalMet n bound target ↔ s.GlobalMet n bound target := by
  simp only [State.GlobalMet, h.flushGroupsSafe, h.flushTarget, h.marks]

/-- At the end of an event in OPERATING the record is examined once, in a state `v` that the examinations before
it leave: the record and the flushes' conditions are there still as they were, and so is a stream that no other
flush waits on. What is done to them in `v` stands at the end. -/
theorem State.endEvent_examines (operating : s.mode = .operating) (found : s.read? i = some rec) :
    ∃ v, s.FlushFrame v ∧ v.read? i = some rec ∧
      s.endEvent.read? i = (v.settleFlush i).read? i ∧
      (v.settleFlush i).formed <+: s.endEvent.formed ∧
      ∀ k, (∀ j rec' b t, j ≠ i → s.read? j = some rec' → rec'.state = .waiting →
          rec'.kind ≠ .streamFlush k b t) →
        v.stream k = s.stream k ∧ s.endEvent.stream k = (v.settleFlush i).stream k := by
  obtain ⟨before, after, order⟩ := List.append_of_mem (State.mem_readOrder.2 ⟨rec, found⟩)
  have nodup := s.readOrder_nodup
  rw [order, List.nodup_append] at nodup
  obtain ⟨nodupBefore, nodupRest, apart⟩ := nodup
  obtain ⟨notAfter, nodupAfter⟩ := List.nodup_cons.1 nodupRest
  have notBefore : i ∉ before := fun mem => apart i mem i List.mem_cons_self rfl
  let v := before.foldl State.settleFlush s
  have ends : s.endEvent = (after.foldl State.settleFlush (v.settleFlush i)).settleClaims := by
    rw [State.endEvent_of_operating operating, order, List.foldl_append, List.foldl_cons]
  refine ⟨v, State.settleFlush_foldl_frame before s,
    (State.read?_settleFlush_foldl before s notBefore).trans found, ?_, ?_, fun k alone => ⟨?_, ?_⟩⟩
  · rw [ends]
    exact State.read?_settleFlush_foldl after _ notAfter
  · rw [ends]
    exact (State.settleFlush_foldl_frame after (v.settleFlush i)).formed
  · exact State.stream_settleFlush_foldl_of_other before s nodupBefore fun j mem rec' b t =>
      alone j rec' b t fun same => notBefore (same ▸ mem)
  · rw [ends]
    refine State.stream_settleFlush_foldl_of_other after _ nodupAfter fun j mem rec' b t found' => ?_
    have other : j ≠ i := fun same => notAfter (same ▸ mem)
    have unexamined : j ∉ before := fun early => apart j early j (List.mem_cons_of_mem i mem) rfl
    rw [State.read?_settleFlush_of_ne v (Ne.symm other),
      State.read?_settleFlush_foldl before s unexamined] at found'
    exact alone j rec' b t other found'

/-! ### What an examined flush is at the end of the event -/

/-- A global flush with its pass target in place reads so. -/
theorem State.read?_aimed (found : s.read? i = some rec) :
    State.read? { s with reads := s.reads.set i (some (s.aimed rec bound target)) } i =
      some (s.aimed rec bound target) := by
  rw [State.read?_of_set found rfl, if_pos rfl]

/-- A requester's global flush whose condition is met is DONE with OK (R110). -/
theorem State.settleFlush_of_global_live (found : s.read? i = some rec) (waiting : rec.state = .waiting)
    (kind : rec.kind = .globalFlush bound target) (met : s.GlobalMet rec.intake bound target)
    (live : rec.orphan = false) :
    s.settleFlush i =
      { s with
        reads := s.reads.set i (some ((s.aimed rec bound target).completed .ok []))
        formed := s.formed ++ [.record i] } := by
  classical
  rw [State.settleFlush_of_global found waiting kind, if_pos met,
    State.formRead_of_live (State.read?_aimed found) live]
  simp only [List.set_set]

/-- A waiting global flush at the end of an event in OPERATING (R108, R110, R114). -/
theorem State.endEvent_global (operating : s.mode = .operating) (found : s.read? i = some rec)
    (waiting : rec.state = .waiting) (kind : rec.kind = .globalFlush bound target) :
    (s.GlobalMet rec.intake bound target → rec.orphan = false →
        s.endEvent.read? i = some ((s.aimed rec bound target).completed .ok []) ∧
          .record i ∈ s.endEvent.formed) ∧
      (s.GlobalMet rec.intake bound target → rec.orphan = true → s.endEvent.read? i = none) ∧
      (¬s.GlobalMet rec.intake bound target →
        s.endEvent.read? i = some (s.aimed rec bound target)) := by
  classical
  obtain ⟨v, frame, found', read, formed, _⟩ := State.endEvent_examines operating found
  have aimed : v.aimed rec bound target = s.aimed rec bound target := by
    rw [State.aimed, frame.flushTarget]
    rfl
  have met_iff := frame.globalMet (n := rec.intake) (bound := bound) (target := target)
  rw [read, ← met_iff, ← aimed]
  refine ⟨fun met live => ?_, fun met orphan => ?_, fun unmet => ?_⟩
  · rw [State.settleFlush_of_global_live found' waiting kind met live] at formed ⊢
    exact ⟨by rw [State.read?_of_set found' rfl, if_pos rfl], formed.subset (by simp)⟩
  · rw [State.settleFlush_of_global found' waiting kind, if_pos met,
      State.formRead_of_orphan (State.read?_aimed found') orphan,
      State.read?_of_set (State.read?_aimed found') rfl, if_pos rfl]
  · rw [State.settleFlush_of_global found' waiting kind, if_neg unmet, State.read?_aimed found']

/-- A count that a flush takes and gives back leaves the stream as it was. -/
theorem StreamState.restored_cleared (st : StreamState) (small : st.discards ≤ 255) :
    st.cleared.restored { count := st.discards, cause := st.lastCause } = st := by
  obtain ⟨group, discards, cause⟩ := st
  simp only [StreamState.cleared, StreamState.restored, Nat.zero_add, Nat.min_eq_right small]
  cases cause <;> rfl

/-- The changed stream of a table of streams. -/
theorem getD_modify_self {l : List StreamState} (inTable : k < l.length)
    (f : StreamState → StreamState) : (l.modify k f).getD k .idle = f (l.getD k .idle) := by
  simp [List.getD_eq_getElem?_getD, inTable]

/-- A waiting stream flush, the only one on its stream, at the end of an event in OPERATING (R111, R112,
R114). -/
theorem State.endEvent_stream (operating : s.mode = .operating) (found : s.read? i = some rec)
    (waiting : rec.state = .waiting) (kind : rec.kind = .streamFlush k bound taken)
    (inTable : k < s.streams.length)
    (alone : ∀ j rec' b t, j ≠ i → s.read? j = some rec' → rec'.state = .waiting →
      rec'.kind ≠ .streamFlush k b t) :
    (s.FlushGroupsSafe (fun st => st = k) bound → rec.orphan = false →
        s.endEvent.read? i = some (s.takenDone rec k bound) ∧ .record i ∈ s.endEvent.formed ∧
          s.endEvent.stream k = (s.stream k).cleared) ∧
      (s.FlushGroupsSafe (fun st => st = k) bound → rec.orphan = true → (s.stream k).discards ≤ 255 →
        s.endEvent.read? i = none ∧ s.endEvent.stream k = s.stream k) ∧
      (¬s.FlushGroupsSafe (fun st => st = k) bound →
        s.endEvent.read? i = some rec ∧ s.endEvent.stream k = s.stream k) := by
  obtain ⟨v, frame, found', read, formed, streams⟩ := State.endEvent_examines operating found
  obtain ⟨before, ends⟩ := streams k alone
  have inTable' : k < v.streams.length := frame.streams ▸ inTable
  have done : v.takenDone rec k bound = s.takenDone rec k bound := by
    simp only [State.takenDone, State.taking, State.toTake, before]
  rw [read, ends, ← frame.flushGroupsSafe, ← before, ← done]
  refine ⟨fun met live => ?_, fun met orphan small => ?_, fun unmet => ?_⟩
  · rw [State.settleFlush_of_stream_met found' waiting kind met,
      State.takeStreamFlush_of_live found' live] at formed ⊢
    exact ⟨by rw [State.read?_of_set found' rfl, if_pos rfl], formed.subset (by simp),
      getD_modify_self inTable' _⟩
  · rw [State.settleFlush_of_stream_met found' waiting kind met,
      State.takeStreamFlush_of_orphan found' orphan]
    refine ⟨by rw [State.read?_of_set found' rfl, if_pos rfl], ?_⟩
    refine (getD_modify_self (by simpa using inTable') _).trans ?_
    rw [getD_modify_self inTable']
    exact StreamState.restored_cleared (v.stream k) small
  · rw [State.settleFlush_of_stream_unmet found' kind unmet]
    exact ⟨found', rfl⟩

/-! ### The order of the examination (R112) -/

/-- With one record in use it alone is examined. -/
theorem State.readOrder_single (found : s.read? i = some rec)
    (only : ∀ q, q ≠ i → s.read? q = none) : s.readOrder = [i] := by
  refine List.perm_singleton.1
    ((List.perm_ext_iff_of_nodup s.readOrder_nodup (List.nodup_singleton i)).2 fun q => ?_)
  rw [State.mem_readOrder, List.mem_singleton]
  by_cases same : q = i
  · simp [same, found]
  · simp [same, only q same]

/-- Of two records in use the one with the earlier intake number is examined first. -/
theorem State.readOrder_pair {first second : ReadRecord} (apart : i ≠ j)
    (found : s.read? i = some first) (found' : s.read? j = some second)
    (only : ∀ q, q ≠ i → q ≠ j → s.read? q = none)
    (order : earlier first.intake second.intake = true) : s.readOrder = [i, j] := by
  have both : s.readOrder.Perm [i, j] := by
    refine (List.perm_ext_iff_of_nodup s.readOrder_nodup (by simp [apart])).2 fun q => ?_
    rw [State.mem_readOrder, List.mem_pair]
    by_cases atFirst : q = i
    · simp [atFirst, found]
    · by_cases atSecond : q = j
      · simp [atSecond, found']
      · simp [atFirst, atSecond, only q atFirst atSecond]
  have window : ∀ q rec, s.read? q = some rec → InWindow first.intake rec.intake := by
    intro q rec inUse
    by_cases atFirst : q = i
    · rw [atFirst, found] at inUse
      cases inUse
      simp [InWindow]
    · by_cases atSecond : q = j
      · rw [atSecond, found'] at inUse
        cases inUse
        simp only [earlier, Bool.and_eq_true, decide_eq_true_eq] at order
        exact order.2
      · rw [only q atFirst atSecond] at inUse
        cases inUse
  rcases List.perm_pair.1 both with same | swapped
  · exact same
  · have ordered := State.readOrder_ordered window
    rw [swapped] at ordered
    have := (List.pairwise_cons.1 ordered).1 i List.mem_cons_self second first found' found
    rw [order] at this
    cases this

/-- A state in which every closed group is committed makes no flush wait (R107, R111). -/
theorem State.flushGroupsSafe_of_committed {p : Nat → Prop}
    (committed : ∀ q g, s.group? q = some g → p g.stream → g.serial.isSome = true →
      g.state = .committed ∨ g.state = .applying ∨ g.state = .applied) :
    s.FlushGroupsSafe p bound := by
  intro q g n b found serial _ _ admitted
  rcases committed q g found admitted (by simp [serial]) with state | state | state <;>
    simp [state]

/-! ### Flushes in their own event, and two on one stream (O44) -/

/-- The record of a flush just taken (R99). -/
def State.flushRecord (s : State) (r : Request) : ReadRecord :=
  { tag := r.tag, kind := s.readKind r, intake := s.intake, orphan := false, state := .waiting }

/-- The state in which a flush at the head has been taken into record `i` (R3, R99). -/
def State.flushTaken (s : State) (rest : List QueueItem) (r : Request) (i : Nat) : State :=
  { s.headTaken rest with reads := s.reads.set i (some (s.flushRecord r)) }

/-- A flush taken in OPERATING with no other read record in use is examined alone at the end of its own
event. -/
theorem exec_takeFlush {r : Request} {rest : List QueueItem} (calm : s.calm) (mode : s.mode = .operating)
    (horizon : s.horizonHold = false) (queue : s.queue = .request r :: rest) (kind : r.kind = .read)
    (empty : r.length = 0) (noClose : r.close = false) (free : s.reads[i]? = some none)
    (unused : ∀ q, s.read? q = none) (below : ∀ j, j < i → ∃ rec, s.reads[j]? = some (some rec))
    (live : .linkDownMarker ∉ rest) :
    let u := s.flushTaken rest r i
    u.read? i = some (s.flushRecord r) ∧
      exec .takeRequest s = .next (u.settleFlush i).settleClaims := by
  intro u
  obtain ⟨inTable, _⟩ := List.getElem?_eq_some_iff.1 free
  have read : ∀ q, u.read? q = if i = q then some (s.flushRecord r) else none := by
    intro q
    rw [State.read?, show u.reads = s.reads.set i (some (s.flushRecord r)) from rfl, getD_set]
    by_cases same : i = q
    · rw [if_pos ⟨same, same ▸ inTable⟩, if_pos same]
    · rw [if_neg fun both => same both.1, if_neg same]
      exact unused q
  have placed : u.read? i = some (s.flushRecord r) := by rw [read, if_pos rfl]
  have order : u.readOrder = [i] :=
    State.readOrder_single placed fun q other => by rw [read, if_neg (Ne.symm other)]
  have given := (readGetsARecord s r rest i calm (.inl ⟨mode, horizon⟩) queue kind free below).2 mode
  have same : ReadRecord.mk r.tag (s.readKind r) s.intake (decide (.linkDownMarker ∈ rest))
      (if 1 ≤ r.length then .held else .waiting) = s.flushRecord r := by
    simp [State.flushRecord, empty, live]
  have whole : exec .takeRequest s = .next u.endEvent :=
    (given.2.2 (by simp [unused]) (by simp [noClose, empty]) (by simp [empty])).trans
      (congrArg (fun rec => Host.Outcome.next (State.endEvent
        { s.headTaken rest with reads := s.reads.set i (some rec) })) same)
  refine ⟨placed, ?_⟩
  rw [whole, State.endEvent_of_operating (by exact mode), order]
  rfl

/-- Two stream flushes of one stream with their conditions met: the earlier takes, the later finds nothing. -/
theorem State.endEvent_twoFlushes {first second : ReadRecord} {b b' : Option Num32}
    {tk tk' : Option Taken} (operating : s.mode = .operating) (apart : i ≠ j)
    (found : s.read? i = some first) (found' : s.read? j = some second)
    (only : ∀ q, q ≠ i → q ≠ j → s.read? q = none) (waiting : first.state = .waiting)
    (waiting' : second.state = .waiting) (kind : first.kind = .streamFlush k b tk)
    (kind' : second.kind = .streamFlush k b' tk') (live : first.orphan = false)
    (live' : second.orphan = false) (order : earlier first.intake second.intake = true)
    (inTable : k < s.streams.length) (met : s.FlushGroupsSafe (fun st => st = k) b)
    (met' : s.FlushGroupsSafe (fun st => st = k) b') :
    s.endEvent.formed = s.formed ++ [.record i, .record j] ∧
      s.endEvent.read? i = some (s.takenDone first k b) ∧
      (∃ u, s.endEvent.read? j = some u ∧ u.state = .done
        { tag := second.tag, status := .ok, data := [0#8, 0#8, 0#8, 0#8] }) ∧
      s.endEvent.stream k = (s.stream k).cleared := by
  have settled : s.settleFlush i =
      { s with
        reads := s.reads.set i (some (s.takenDone first k b))
        formed := s.formed ++ [.record i]
        streams := s.streams.modify k StreamState.cleared } := by
    rw [State.settleFlush_of_stream_met found waiting kind met, State.takeStreamFlush_of_live found live]
  let v := s.settleFlush i
  have readFirst : v.read? i = some (s.takenDone first k b) := by
    rw [State.read?_of_set found (congrArg State.reads settled), if_pos rfl]
  have readSecond : v.read? j = some second := (State.read?_settleFlush_of_ne s apart).trans found'
  have stream : v.stream k = (s.stream k).cleared :=
    (congrArg (fun w => State.stream w k) settled).trans (getD_modify_self inTable _)
  have frame : s.FlushFrame v := State.settleFlush_frame s i
  have settled' : v.settleFlush j =
      { v with
        reads := v.reads.set j (some (v.takenDone second k b'))
        formed := v.formed ++ [.record j]
        streams := v.streams.modify k StreamState.cleared } := by
    rw [State.settleFlush_of_stream_met readSecond waiting' kind' (frame.flushGroupsSafe.2 met'),
      State.takeStreamFlush_of_live readSecond live']
  have ends : s.endEvent = (v.settleFlush j).settleClaims := by
    rw [State.endEvent_of_operating operating, State.readOrder_pair apart found found' only order]
    rfl
  have formed : v.formed = s.formed ++ [.record i] := congrArg State.formed settled
  refine ⟨?_, ?_, ⟨v.takenDone second k b', ?_, ?_⟩, ?_⟩
  · rw [ends]
    refine (congrArg State.formed settled').trans ?_
    simp [formed]
  · rw [ends]
    exact (State.read?_settleFlush_of_ne v (Ne.symm apart)).trans readFirst
  · rw [ends]
    exact (State.read?_of_set readSecond (congrArg State.reads settled') j).trans (if_pos rfl)
  · simp [State.takenDone, State.taking, ReadRecord.completed, stream, StreamState.cleared, causeCode]
  · rw [ends]
    refine (congrArg (fun w => State.stream w k) settled').trans ?_
    refine (getD_modify_self (frame.streams ▸ inTable) _).trans ?_
    exact (congrArg StreamState.cleared stream).trans rfl

/-- Settles O44: a flush in its own event, a waiting global flush, a waiting stream flush, and two of one
stream. -/
theorem flushWithItsConditionMetIsDone : Obligations.FlushWithItsConditionMetIsDone := by
  unfold Obligations.FlushWithItsConditionMetIsDone
  refine ⟨?_, ?_, ?_, ?_⟩
  · intro s r rest i calm mode sized horizon queue kind empty noClose free unused below live
    obtain ⟨_, _, streams, _⟩ := sized
    obtain ⟨placed, whole⟩ :=
      exec_takeFlush calm mode horizon queue kind empty noClose free unused below live
    refine ⟨fun group inStreams committed => ⟨_, whole, ?_⟩, fun noGroup committed drained durable =>
      ⟨_, whole, ?_⟩⟩
    · have flush : (s.flushRecord r).kind = .streamFlush r.stream s.serial none := by
        simp [State.flushRecord, State.readKind, empty, group]
      have inTable : r.stream < s.streams.length := by
        rw [streams]
        exact inStreams
      rw [State.settleFlush_of_stream_met placed rfl flush
        (State.flushGroupsSafe_of_committed committed), State.takeStreamFlush_of_live placed rfl]
      refine ⟨⟨_, (State.read?_of_set placed rfl i).trans (if_pos rfl), rfl⟩, rfl,
        getD_modify_self inTable _, fun q other => ?_⟩
      exact (State.stream_modifyStream s r.stream q _).trans (if_neg fun both => other both.1.symm)
    · have flush : (s.flushRecord r).kind = .globalFlush s.serial none := by
        simp [State.flushRecord, State.readKind, empty, noGroup]
      have target : s.flushTarget s.intake none = some s.marks.passSend := by
        refine if_neg ?_
        simp only [State.passBefore, List.any_eq_true, Bool.and_eq_true, not_exists, not_and]
        intro e staged isPass
        simp [drained e staged] at isPass
      have met : s.GlobalMet s.intake s.serial none :=
        ⟨State.flushGroupsSafe_of_committed fun q g found _ => committed q g found, _, target, .inl durable⟩
      rw [State.settleFlush_of_global_live placed rfl flush met rfl]
      exact ⟨⟨_, (State.read?_of_set placed rfl i).trans (if_pos rfl), rfl⟩, rfl, rfl⟩
  · intro s i rec bound target mode found waiting kind aimed met t
    have aims : s.flushTarget rec.intake target = aimed := by cases target <;> rfl
    have isAimed : s.aimed rec bound target = { rec with kind := .globalFlush bound aimed } := by
      rw [State.aimed, aims]
    have isMet : s.GlobalMet rec.intake bound target ↔ met := by
      rw [State.GlobalMet, aims]
    have ends := State.endEvent_global mode found waiting kind
    rw [isMet, isAimed] at ends
    exact ends
  · intro s i k rec bound taken mode found waiting kind inTable alone met st t
    exact State.endEvent_stream mode found waiting kind inTable alone
  · intro s i j k first second b b' tk tk' mode apart found found' only waiting waiting' kind kind' live
      live' order inTable met met' st t
    obtain ⟨formed, firstDone, secondDone, stream⟩ := State.endEvent_twoFlushes mode apart found found'
      only waiting waiting' kind kind' live live' order inTable met met'
    exact ⟨formed, ⟨_, firstDone, rfl⟩, secondDone, stream⟩

end Sys2Proof.Machine
end

section
/-! PROOFS. The completion of a group fence and of a checkpoint's fences (R52, R79, R83, R91, R92): which
groups the commitment of a group carries along, and what the retirement of a checkpoint's run frees. -/

namespace Sys2Proof.Machine

variable {s v w : State} {r q : Nat} {g : Group} {n m : Num32} {f : CkptFlight}

/-! ### Serials, and the groups that are committed or fence-complete (R83) -/

/-- The serial of a record's group, if it has one. -/
def State.serialOf (s : State) (q : Nat) : Option Num32 := (s.group? q).bind Group.serial

/-- A record's group is COMMITTED, APPLYING or APPLIED. -/
def State.IsCommitted (s : State) (q : Nat) : Prop :=
  ∃ h, s.group? q = some h ∧ h.state.isCommitted = true

/-- A record's group is COMMITTING with its fence completed. -/
def State.IsFenceComplete (s : State) (q : Nat) : Prop :=
  ∃ h, s.group? q = some h ∧ h.state = .committing ∧ h.fenceComplete = true

/-- The states from COMMITTED onward. -/
theorem GroupState.isCommitted_iff (st : GroupState) :
    st.isCommitted = true ↔ st = .committed ∨ st = .applying ∨ st = .applied := by
  cases st <;> simp [GroupState.isCommitted]

theorem State.serialOf_eq_some : s.serialOf q = some n ↔ ∃ h, s.group? q = some h ∧ h.serial = some n :=
  Option.bind_eq_some_iff

/-- The closed groups are the records with a serial. -/
theorem State.mem_closedGroups_fst :
    q ∈ s.closedGroups.map Prod.fst ↔ ∃ k, s.serialOf q = some k := by
  simp only [List.mem_map, Prod.exists, exists_and_right, exists_eq_right, State.mem_closedGroups,
    State.serialOf_eq_some, Option.isSome_iff_exists]
  exact ⟨fun ⟨h, found, k, serial⟩ => ⟨k, h, found, serial⟩,
    fun ⟨k, h, found, serial⟩ => ⟨h, found, k, serial⟩⟩

/-- No lower serial holds a group back (R83). -/
theorem State.lowerCommitted_iff : s.lowerCommitted n = true ↔
    ∀ q k, s.serialOf q = some k → earlier k n = true → s.IsCommitted q := by
  simp only [State.lowerCommitted, List.all_eq_true, Prod.forall, State.mem_closedGroups,
    Bool.or_eq_true, Bool.not_eq_true', ← Bool.not_eq_true, Option.any_eq_true]
  constructor
  · intro all q k serial lower
    obtain ⟨h, found, serial⟩ := State.serialOf_eq_some.1 serial
    refine ⟨h, found, (all q h ⟨found, by simp [serial]⟩).resolve_right ?_⟩
    exact not_not_intro ⟨k, serial, lower⟩
  · rintro all q h ⟨found, -⟩
    refine or_iff_not_imp_right.2 fun lower => ?_
    obtain ⟨k, serial, lower⟩ := not_not.1 lower
    obtain ⟨h', found', committed⟩ := all q k (State.serialOf_eq_some.2 ⟨h, found, serial⟩) lower
    cases found.symm.trans found'
    exact committed

/-- No lower serial holds a group back, by the states of the groups (R83). -/
theorem State.lowerCommitted_iff_state : s.lowerCommitted n = true ↔
    ∀ q h k, s.group? q = some h → h.serial = some k → earlier k n = true →
      h.state = .committed ∨ h.state = .applying ∨ h.state = .applied := by
  simp only [State.lowerCommitted_iff, State.serialOf_eq_some, State.IsCommitted,
    ← GroupState.isCommitted_iff]
  constructor
  · intro all q h k found serial lower
    obtain ⟨h', found', committed⟩ := all q k ⟨h, found, serial⟩ lower
    cases found.symm.trans found'
    exact committed
  · rintro all q k ⟨h, found, serial⟩ lower
    exact ⟨h, found, all q h k found serial lower⟩

/-- The group of a serial that no other group carries. -/
theorem State.groupOfSerial_eq (found : s.group? r = some g) (serial : g.serial = some n)
    (only : ∀ q h, s.group? q = some h → h.serial = some n → q = r) :
    s.groupOfSerial n = some (r, g) := by
  have listed : (r, g) ∈ s.closedGroups := State.mem_closedGroups.2 ⟨found, by simp [serial]⟩
  cases first : s.groupOfSerial n with
  | none => simpa [serial] using List.find?_eq_none.1 first _ listed
  | some p =>
    obtain ⟨q, h⟩ := p
    obtain ⟨found', -⟩ := State.mem_closedGroups.1 (List.mem_of_find?_eq_some first)
    obtain rfl : q = r := only q h found' (by simpa using List.find?_some first)
    rw [found] at found'
    cases found'
    rfl

/-- The committed group; every other reads as before. -/
theorem State.group?_commitGroup (found : s.group? r = some g) (q : Nat) :
    (s.commitGroup r).group? q = if r = q then some { g with state := .committed } else s.group? q := by
  rw [State.commitGroup, State.group?_modifyGroup]
  split
  · next same =>
    subst same
    rw [found]
    rfl
  · rfl

/-- A commitment keeps every serial. -/
theorem State.serialOf_commitGroup (found : s.group? r = some g) :
    (s.commitGroup r).serialOf = s.serialOf := by
  funext q
  rw [State.serialOf, State.group?_commitGroup found]
  split
  · next same =>
    subst same
    rw [State.serialOf, found]
    rfl
  · rfl

/-! ### The groups that follow a commitment (R83) -/

/-- Only groups have changed, and each only from fence-complete COMMITTING to COMMITTED. -/
structure State.Commits (s v : State) : Prop where
  frame : v = { s with groups := v.groups }
  group : ∀ q, v.group? q = s.group? q ∨ ∃ h, s.group? q = some h ∧ h.state = .committing ∧
    h.fenceComplete = true ∧ v.group? q = some { h with state := .committed }

namespace State.Commits

theorem refl (s : State) : s.Commits s := ⟨rfl, fun _ => .inl rfl⟩

/-- A group that has become COMMITTED stays as it is. -/
theorem trans (first : s.Commits v) (second : v.Commits w) : s.Commits w := by
  refine ⟨by rw [second.frame, first.frame], fun q => ?_⟩
  rcases second.group q with same | ⟨h, found, committing, complete, changed⟩
  · rw [same]
    exact first.group q
  · rcases first.group q with same' | ⟨h', -, -, -, changed'⟩
    · exact .inr ⟨h, same' ▸ found, committing, complete, changed⟩
    · rw [found] at changed'
      cases changed'
      cases committing

theorem followCommit (s : State) (q : Nat) : s.Commits (s.followCommit q) := by
  rw [State.followCommit]
  split
  · exact refl s
  · next h found =>
    split
    · next ready =>
      refine ⟨rfl, fun j => ?_⟩
      rw [State.commitGroup, State.group?_modifyGroup]
      split
      · next same =>
        subst same
        rw [found]
        exact .inr ⟨h, rfl, ready.1, ready.2.1, rfl⟩
      · exact .inl rfl
    · exact refl s

theorem foldl (l : List Nat) (s : State) : s.Commits (l.foldl State.followCommit s) := by
  induction l generalizing s with
  | nil => exact refl s
  | cons q l ih => exact (followCommit s q).trans (ih _)

theorem serialOf (h : s.Commits v) : v.serialOf = s.serialOf := by
  funext q
  rcases h.group q with same | ⟨g, found, -, -, changed⟩
  · simp [State.serialOf, same]
  · simp [State.serialOf, found, changed]

theorem isCommitted (h : s.Commits v) (committed : s.IsCommitted q) : v.IsCommitted q := by
  rcases h.group q with same | ⟨g, -, -, -, changed⟩
  · rwa [State.IsCommitted, same]
  · exact ⟨_, changed, rfl⟩

theorem isFenceComplete (h : s.Commits v) (complete : s.IsFenceComplete q) :
    v.IsCommitted q ∨ v.IsFenceComplete q := by
  rcases h.group q with same | ⟨g, -, -, -, changed⟩
  · exact .inr (by rwa [State.IsFenceComplete, same])
  · exact .inl ⟨_, changed, rfl⟩

/-- A group that was COMMITTING and is committed has only changed its state. -/
theorem group_of_isCommitted (h : s.Commits v) (found : s.group? q = some g) (state : g.state = .committing)
    (committed : v.IsCommitted q) : v.group? q = some { g with state := .committed } := by
  rcases h.group q with same | ⟨g', found', -, -, changed⟩
  · obtain ⟨g', found', committed⟩ := committed
    rw [same, found] at found'
    cases found'
    rw [state] at committed
    cases committed
  · rw [found] at found'
    cases found'
    exact changed

end State.Commits

/-- A fence-complete group that no lower serial holds back becomes COMMITTED when it is examined. -/
theorem State.isCommitted_followCommit (complete : s.IsFenceComplete q) (serial : s.serialOf q = some n)
    (lower : s.lowerCommitted n = true) : (s.followCommit q).IsCommitted q := by
  obtain ⟨h, found, committing, complete⟩ := complete
  obtain ⟨h', found', serial⟩ := State.serialOf_eq_some.1 serial
  cases found.symm.trans found'
  refine ⟨{ h with state := .committed }, ?_, rfl⟩
  have ready : h.serial.any s.lowerCommitted = true := by rwa [serial, Option.any_some]
  simp only [State.followCommit, found]
  rw [if_pos ⟨committing, complete, ready⟩, State.group?_commitGroup found, if_pos rfl]

/-- Records stand in the order of their serials: none has an earlier serial than one in front of it. -/
def State.SerialsOrdered (s : State) (l : List Nat) : Prop :=
  l.Pairwise fun a b => ∀ j k, s.serialOf a = some j → s.serialOf b = some k → earlier k j = false

/-- In serial order, every group below a serial is committed once all of them are committed or stand
fence-complete in the list. -/
theorem State.isCommitted_foldl {base : Num32} (l : List Nat) (s : State)
    (window : ∀ q k, s.serialOf q = some k → InWindow base k) (bound : InWindow base m)
    (ordered : s.SerialsOrdered l)
    (ripe : ∀ q k, s.serialOf q = some k → earlier k m = true →
      s.IsCommitted q ∨ q ∈ l ∧ s.IsFenceComplete q) {k : Num32}
    (serial : s.serialOf q = some k) (lower : earlier k m = true) :
    (l.foldl State.followCommit s).IsCommitted q := by
  induction l generalizing s q k with
  | nil => exact (ripe q k serial lower).resolve_right fun listed => List.not_mem_nil listed.1
  | cons a l ih =>
    obtain ⟨front, ordered⟩ := List.pairwise_cons.1 ordered
    have step : s.Commits (s.followCommit a) := .followCommit s a
    have same := step.serialOf
    refine ih (s.followCommit a) (by rwa [same]) (by rwa [State.SerialsOrdered, same]) ?_
      (by rwa [same]) lower
    intro j i serialJ lowerJ
    rw [same] at serialJ
    rcases ripe j i serialJ lowerJ with committed | ⟨listed, complete⟩
    · exact .inl (step.isCommitted committed)
    rcases List.mem_cons.1 listed with rfl | behind
    · refine .inl (State.isCommitted_followCommit complete serialJ (State.lowerCommitted_iff.2 ?_))
      intro b d serialB lowerB
      have below : earlier d m = true := by
        have h1 := (earlier_iff (window b d serialB) (window j i serialJ)).1 lowerB
        have h2 := (earlier_iff (window j i serialJ) bound).1 lowerJ
        exact (earlier_iff (window b d serialB) bound).2 (h1.trans h2)
      refine (ripe b d serialB below).resolve_right fun ⟨listed, _⟩ => ?_
      rcases List.mem_cons.1 listed with rfl | behind
      · cases serialJ.symm.trans serialB
        simp [earlier] at lowerB
      · simp [front b behind i d serialJ serialB] at lowerB
    · exact (step.isFenceComplete complete).imp_right fun complete => ⟨behind, complete⟩

/-- In serial order, a fence-complete group is committed once every group below it is committed or
fence-complete. -/
theorem State.isCommitted_foldl_of_ripe {base : Num32} {l : List Nat}
    (window : ∀ q k, s.serialOf q = some k → InWindow base k) (ordered : s.SerialsOrdered l)
    (all : ∀ q k, s.serialOf q = some k → q ∈ l) (complete : s.IsFenceComplete q)
    (serial : s.serialOf q = some m)
    (ripe : ∀ j k, s.serialOf j = some k → earlier k m = true →
      s.IsCommitted j ∨ s.IsFenceComplete j) :
    (l.foldl State.followCommit s).IsCommitted q := by
  obtain ⟨before, after, rfl⟩ := List.append_of_mem (all q m serial)
  obtain ⟨orderedBefore, orderedAfter, -⟩ := List.pairwise_append.1 ordered
  have behind := (List.pairwise_cons.1 orderedAfter).1
  have step : s.Commits (before.foldl State.followCommit s) := .foldl before s
  have lower : (before.foldl State.followCommit s).lowerCommitted m = true := by
    refine State.lowerCommitted_iff.2 fun j k serialJ lowerJ => ?_
    rw [step.serialOf] at serialJ
    refine State.isCommitted_foldl before s window (window q m serial) orderedBefore ?_ serialJ lowerJ
    intro j k serialJ lowerJ
    refine (ripe j k serialJ lowerJ).imp_right fun complete => ⟨?_, complete⟩
    rcases List.mem_append.1 (all j k serialJ) with inFront | rest
    · exact inFront
    · rcases List.mem_cons.1 rest with rfl | later
      · cases serial.symm.trans serialJ
        simp [earlier] at lowerJ
      · simp [behind j later m k serial serialJ] at lowerJ
  rw [List.foldl_append, List.foldl_cons]
  refine State.Commits.isCommitted (.foldl after _) ?_
  rcases step.isFenceComplete complete with committed | complete
  · exact State.Commits.isCommitted (.followCommit _ q) committed
  · exact State.isCommitted_followCommit complete (by rwa [step.serialOf]) lower

/-- The closed groups stand in serial order. -/
theorem State.serialsOrdered_closedGroups {base : Num32}
    (window : ∀ q k, s.serialOf q = some k → InWindow base k) :
    s.SerialsOrdered (s.closedGroups.map Prod.fst) := by
  have ordered := State.closedGroups_ordered (s := s) (base := base) fun q h k found serial =>
    window q k (State.serialOf_eq_some.2 ⟨h, found, serial⟩)
  have serialOf : ∀ p ∈ s.closedGroups, ∀ k, s.serialOf p.1 = some k → p.2.serial.getD 0#32 = k := by
    intro ⟨q, h⟩ listed k serial
    rw [State.serialOf, (State.mem_closedGroups.1 listed).1] at serial
    simp [show h.serial = some k from serial]
  refine List.pairwise_map.2 (List.Pairwise.imp_of_mem ?_ ordered)
  intro a b memA memB notEarlier j k hj hk
  rw [← serialOf a memA j hj, ← serialOf b memB k hk]
  exact notEarlier

/-! ### A group fence completed OK (R83) -/

section GroupFence

variable (found : s.group? r = some g) (serial : g.serial = some n) (state : g.state = .committing)
  (only : ∀ q h, s.group? q = some h → h.serial = some n → q = r)

include found serial state only

/-- With no lower serial uncommitted the group is COMMITTED and the groups behind it follow. -/
theorem State.groupFenceOk_of_lower (lower : s.lowerCommitted n = true) :
    s.groupFenceOk n = (s.closedGroups.map Prod.fst).foldl State.followCommit (s.commitGroup r) := by
  simp [State.groupFenceOk, State.groupOfSerial_eq found serial only, state, lower]

/-- With a lower serial uncommitted the group is fence-complete. -/
theorem State.groupFenceOk_of_held (held : s.lowerCommitted n = false) :
    s.groupFenceOk n = s.modifyGroup r fun g => { g with fenceComplete := true } := by
  simp [State.groupFenceOk, State.groupOfSerial_eq found serial only, state, held]

/-- The fence's own group is COMMITTED. -/
theorem State.group?_groupFenceOk_self (lower : s.lowerCommitted n = true) :
    (s.groupFenceOk n).group? r = some { g with state := .committed } := by
  rw [State.groupFenceOk_of_lower found serial state only lower]
  have committed : (s.commitGroup r).group? r = some { g with state := .committed } := by
    rw [State.group?_commitGroup found, if_pos rfl]
  rcases (State.Commits.foldl (s.closedGroups.map Prod.fst) (s.commitGroup r)).group r with
    same | ⟨h, found', committing, -, -⟩
  · rw [same, committed]
  · rw [committed] at found'
    cases found'
    cases committing

/-- The fence's own group is fence-complete. -/
theorem State.group?_groupFenceOk_held (held : s.lowerCommitted n = false) :
    (s.groupFenceOk n).group? r = some { g with fenceComplete := true } := by
  rw [State.groupFenceOk_of_held found serial state only held, State.group?_modifyGroup, if_pos rfl, found]
  rfl

/-- Groups alone change, another than the fence's own only from fence-complete COMMITTING to COMMITTED. -/
theorem State.groupFenceOk_frame : s.groupFenceOk n = { s with groups := (s.groupFenceOk n).groups } ∧
    ∀ q h, q ≠ r → s.group? q = some h → (s.groupFenceOk n).group? q = some h ∨
      h.state = .committing ∧ h.fenceComplete = true ∧
        (s.groupFenceOk n).group? q = some { h with state := .committed } := by
  cases lower : s.lowerCommitted n with
  | false =>
    rw [State.groupFenceOk_of_held found serial state only lower]
    refine ⟨rfl, fun q h other found' => .inl ?_⟩
    rw [State.group?_modifyGroup, if_neg (Ne.symm other), found']
  | true =>
    rw [State.groupFenceOk_of_lower found serial state only lower]
    have followed := State.Commits.foldl (s.closedGroups.map Prod.fst) (s.commitGroup r)
    refine ⟨followed.frame, fun q h other found' => ?_⟩
    have before : (s.commitGroup r).group? q = some h := by
      rw [State.group?_commitGroup found, if_neg (Ne.symm other), found']
    rcases followed.group q with same | ⟨h', found'', committing, complete, changed⟩
    · exact .inl (same.trans before)
    · rw [before] at found''
      cases found''
      exact .inr ⟨committing, complete, changed⟩

/-- A fence-complete group follows once no group of lower serial is left uncommitted. -/
theorem State.group?_groupFenceOk_follows {base : Num32} {h : Group}
    (window : ∀ q k, s.serialOf q = some k → InWindow base k) (lower : s.lowerCommitted n = true)
    (found' : s.group? q = some h) (serial' : h.serial = some m) (state' : h.state = .committing)
    (complete : h.fenceComplete = true)
    (ripe : ∀ j k, s.serialOf j = some k → earlier k m = true →
      s.IsCommitted j ∨ j = r ∨ s.IsFenceComplete j) :
    (s.groupFenceOk n).group? q = some { h with state := .committed } := by
  by_cases own : q = r
  · subst own
    cases found.symm.trans found'
    exact State.group?_groupFenceOk_self found serial state only lower
  have read := State.group?_commitGroup found
  have serials := State.serialOf_commitGroup found
  have before : (s.commitGroup r).group? q = some h := by rw [read, if_neg (Ne.symm own), found']
  have followed := State.Commits.foldl (s.closedGroups.map Prod.fst) (s.commitGroup r)
  rw [State.groupFenceOk_of_lower found serial state only lower]
  refine followed.group_of_isCommitted before state'
    (State.isCommitted_foldl_of_ripe (base := base) (m := m) ?_ ?_ ?_ ⟨h, before, state', complete⟩
      ?_ fun j k serialJ lowerJ => ?_)
  · rwa [serials]
  · rw [State.SerialsOrdered, serials]
    exact State.serialsOrdered_closedGroups window
  · intro j k serialJ
    exact State.mem_closedGroups_fst.2 ⟨k, serials ▸ serialJ⟩
  · rw [serials]
    exact State.serialOf_eq_some.2 ⟨h, found', serial'⟩
  · rw [State.IsCommitted, State.IsFenceComplete, read]
    split
    · exact .inl ⟨_, rfl, rfl⟩
    · next other =>
      rcases ripe j k (serials ▸ serialJ) lowerJ with committed | rfl | complete
      · exact .inl committed
      · exact absurd rfl other
      · exact .inr complete

end GroupFence

/-! ### The retirement of a checkpoint's run (R52, R92) -/

/-- The run covers the groups whose serials it spans (R88). -/
theorem CkptFlight.covers_iff (f : CkptFlight) (g : Group) : f.covers g = true ↔
    ∃ n, g.serial = some n ∧ earlier n f.firstSerial = false ∧ earlier f.lastSerial n = false := by
  simp [CkptFlight.covers, Option.any_eq_true]

/-- The covered records are those of the groups the run covers. -/
theorem State.mem_coveredRecords :
    r ∈ s.coveredRecords f ↔ ∃ g, s.group? r = some g ∧ f.covers g = true := by
  simp only [State.coveredRecords, List.mem_map, List.mem_filter, Prod.exists, exists_and_right,
    exists_eq_right, State.mem_closedGroups]
  refine exists_congr fun g =>
    ⟨fun ⟨⟨found, _⟩, covers⟩ => ⟨found, covers⟩, fun ⟨found, covers⟩ => ?_⟩
  obtain ⟨n, serial, _⟩ := (f.covers_iff g).1 covers
  exact ⟨⟨found, by simp [serial]⟩, covers⟩

/-- Freeing records leaves each of them free, and every other field and record as it was. -/
theorem State.foldl_freeGroup (l : List Nat) (s : State) :
    l.foldl State.freeGroup s = { s with groups := (l.foldl State.freeGroup s).groups } ∧
      ∀ q, (l.foldl State.freeGroup s).group? q = if q ∈ l then none else s.group? q := by
  induction l generalizing s with
  | nil => exact ⟨rfl, fun q => by simp⟩
  | cons r l ih =>
    obtain ⟨frame, read⟩ := ih (s.freeGroup r)
    refine ⟨frame, fun q => (read q).trans ?_⟩
    rw [State.group?_freeGroup]
    by_cases same : r = q
    · simp [same]
    · simp [same, Ne.symm same]

/-- The run retired, the space not yet tested again: `out` has left the staging store (R52, R92). -/
def State.runRetired (s : State) (f : CkptFlight) (gen : Num32) (out : Entry → Bool)
    (groups : List (Option Group)) : State :=
  { s with
    groups := groups
    staging :=
      { entries := s.staging.entries.filter fun e => !out e
        freeEntries := s.staging.freeEntries + (s.staging.entries.filter out).length
        freeUnits := s.staging.freeUnits + totalUnits (s.staging.entries.filter out) }
    credits := s.credits.giveBack s.mode.advertises
      { wh := (s.staging.entries.filter out).length
        wd := totalUnits (s.staging.entries.filter out), rd := 0 }
    ckpt := { tail := some f.newTail, generation := some (gen + 1#32)
              slot := some ((gen + 1#32).toNat % 2), flight := none } }

/-- A retirement frees what the run covers, and tests the space again when the front group waits for it. -/
theorem State.retire_eq {gen : Num32} (generation : s.ckpt.generation = some gen)
    {covered : Nat → Group → Prop} {freed : Entry → Bool}
    (covers : ∀ r g, covered r g ↔ s.group? r = some g ∧ ∃ n, g.serial = some n ∧
      earlier n f.firstSerial = false ∧ earlier f.lastSerial n = false)
    (frees : ∀ e, freed e = true ↔ ∃ r i st g, e.kind = .member r i st ∧ covered r g) :
    ∃ groups, let t := s.runRetired f gen freed groups
      s.retire f = (if t.journal.spaceWait then t.reserve else t) ∧
        (∀ r g, covered r g → t.group? r = none) ∧
        ∀ r g, s.group? r = some g → ¬covered r g → t.group? r = some g := by
  have listed : ∀ r, r ∈ s.coveredRecords f ↔ ∃ g, covered r g := by
    simp only [State.mem_coveredRecords, covers, CkptFlight.covers_iff, implies_true]
  have sameEntries : (fun e : Entry => (s.coveredRecords f).any fun r => e.inRecord r) = freed := by
    funext e
    rw [Bool.eq_iff_iff, List.any_eq_true, frees]
    simp only [listed, Entry.inRecord]
    cases e.kind <;> simp
  let emptied := s.freeEntriesBy freed
  obtain ⟨frame, read⟩ := State.foldl_freeGroup (s.coveredRecords f) emptied
  refine ⟨((s.coveredRecords f).foldl State.freeGroup emptied).groups, ?_, fun r g cov => ?_,
    fun r g found uncovered => ?_⟩
  · simp only [State.retire, sameEntries]
    rw [frame]
    simp only [emptied, State.withCkpt, State.freeEntriesBy, State.returnCredits, State.runRetired,
      generation, Option.map_some]
  · exact (read r).trans (if_pos ((listed r).2 ⟨g, cov⟩))
  · refine (read r).trans ((if_neg fun inRun => ?_).trans found)
    obtain ⟨g', cov⟩ := (listed r).1 inRun
    cases found.symm.trans ((covers r g').1 cov).1
    exact uncovered cov

/-! ### A test of the space leaves all but the front group and the journal engine (R78, R79) -/

/-- A reservation makes the front group JOURNALING. -/
theorem State.group?_reserveGroup (s : State) (r : Nat) (rest : List Nat) (count : Nat) (head : Pos)
    (q : Nat) : (s.reserveGroup r rest count head).group? q =
      if r = q then (s.group? q).map fun g =>
        { g with state := .journaling, start := some head, lines := some (footprint count) }
      else s.group? q :=
  State.group?_modifyGroup ..

/-- A test of the space changes groups and the journal engine alone, and leaves a free record free. -/
theorem State.reserve_frame (s : State) :
    s.reserve = { s with groups := s.reserve.groups, journal := s.reserve.journal } ∧
      ∀ q, s.group? q = none → s.reserve.group? q = none := by
  rcases s.reserve_cases with same | ⟨waits, set⟩ | ⟨r, rest, g, head, -, -, -, -, -, reserved⟩
  · rw [same]
    exact ⟨rfl, fun _ free => free⟩
  · rw [set]
    exact ⟨rfl, fun _ free => free⟩
  · rw [reserved]
    refine ⟨rfl, fun q free => ?_⟩
    rw [State.group?_reserveGroup, free]
    simp

/-- Where the space is tested only for a front group that waits, the same is left. -/
theorem State.reserve_of_spaceWait_frame (s u : State)
    (tested : u = if s.journal.spaceWait then s.reserve else s) :
    u = { s with groups := u.groups, journal := u.journal } ∧
      ∀ q, s.group? q = none → u.group? q = none := by
  rw [tested]
  split
  · exact s.reserve_frame
  · exact ⟨rfl, fun _ free => free⟩

/-- The run retired, the space is tested for the front group, which waited: it is reserved, stops waiting, or
waits on. -/
theorem State.reserve_runRetired {out : Entry → Bool} {groups : List (Option Group)} {gen : Num32}
    {c : JournalConfig} {rest : List Nat} {head : Pos} (mode : s.mode = .operating ∨ s.mode = .holdup)
    (waits : s.journal.spaceWait = true) (config : s.config = some c) (queue : s.journal.queue = r :: rest)
    (position : s.journal.head = some head)
    (front : (s.runRetired f gen out groups).group? r = some g) :
    let t := s.runRetired f gen out groups
    let lines := 2 * g.count + 1
    let free := c.size / 64 - 2 - (head - f.newTail).toNat
    (∀ q, q ≠ r → t.reserve.group? q = t.group? q) ∧
      (lines ≤ free → s.journal.current = none →
        t.reserve.group? r =
            some { g with state := .journaling, start := some head, lines := some lines } ∧
          t.reserve.journal = { s.journal with
            head := some (head + BitVec.ofNat 48 lines)
            queue := rest
            current := some { record := r, phase := .body 0 }
            spaceWait := false }) ∧
      (lines ≤ free → s.journal.current ≠ none →
        t.reserve.group? r = some g ∧ t.reserve.journal = { s.journal with spaceWait := false }) ∧
      (free < lines → t.reserve.group? r = some g ∧ t.reserve.journal = s.journal) := by
  intro t lines free
  have journals : t.mode.journals = true := by
    rcases mode with h | h <;> simp [t, State.runRetired, h, Mode.journals]
  have space : t.freeLines = free := by
    simp [State.freeLines, t, State.runRetired, config, position, free, JournalConfig.ring]
  have lines_eq : footprint g.count = lines := rfl
  rw [← space, ← lines_eq]
  refine ⟨fun q other => ?_, fun fits idle => ?_, fun fits busy => ?_, fun full => ?_⟩
  · rcases t.reserve_cases with same | ⟨waits, set⟩ | ⟨_, _, _, _, queue', -, -, -, -, reserved⟩
    · rw [same]
    · rw [set]
      rfl
    · cases queue.symm.trans queue'
      rw [reserved, State.group?_reserveGroup, if_neg (Ne.symm other)]
  · rw [State.reserve_of_fits journals queue idle position front fits, State.group?_reserveGroup,
      if_pos rfl, front]
    exact ⟨rfl, rfl⟩
  · rw [State.reserve_of_busy journals queue busy position front fits]
    exact ⟨front, rfl⟩
  · rw [State.reserve_of_full journals queue position front full]
    refine ⟨front, ?_⟩
    show { s.journal with spaceWait := true } = s.journal
    rw [← waits]

/-! ### Fences completed OK -/

/-- OPERATING and HOLDUP are modes in which the part works on. -/
theorem Mode.not_stopped {m : Mode} (mode : m = .operating ∨ m = .holdup) : m ≠ .safe ∧ m ≠ .halted := by
  rcases mode with h | h <;> simp [h]

section FenceOk

variable {info : TagInfo} {k : Num32} {a : Answer} (mode : s.mode = .operating ∨ s.mode = .holdup)
  (count : info.passCount = some k) (ok : a.status = .ok)

include mode count

/-- A fence completed OK in a working mode gives its recorded count to the durable mark (R184). -/
theorem State.countFence_of_ok : s.countFence info .ok = s.raiseDurable k := by
  simp [State.countFence, Mode.not_stopped mode, count]

include ok

/-- A group fence's OK reaches the journal engine. -/
theorem State.handOn_groupFence (purpose : info.purpose = .groupFence) (ref : info.ref = .serial n) :
    s.handOn info a = (s.raiseDurable k).groupFenceOk n := by
  simp [State.handOn, purpose, ok, State.countFence_of_ok mode count, State.handGroupFence, ref,
    State.groupFence]

/-- Fence A's OK takes the checkpoint on to its anchor. -/
theorem State.handOn_fenceA (purpose : info.purpose = .fenceA) :
    s.handOn info a = (s.raiseDurable k).withFlight fun f => { f with phase := .anchor } := by
  simp [State.handOn, purpose, ok, State.countFence_of_ok mode count, State.fenceADone]

/-- Fence B's OK retires the checkpoint's run. -/
theorem State.handOn_fenceB (purpose : info.purpose = .fenceB) (flight : s.ckpt.flight = some f) :
    s.handOn info a = (s.raiseDurable k).retire f := by
  simp [State.handOn, purpose, ok, State.countFence_of_ok mode count, State.fenceBDone, flight]

end FenceOk

/-- Settles O13: the group fence by the order of the serials, fence A by its phase, fence B by what it frees
and the test of the space behind it. -/
theorem groupFenceOkCommits : Obligations.GroupFenceOkCommits := by
  unfold Obligations.GroupFenceOkCommits
  refine ⟨?_, ?_, ?_⟩
  · intro bytes s info n k r g calm up good seq completion tag purpose ref count attached mode ok found
      serial state only
    have answered : s.Answered bytes info := ⟨calm, up, good, seq, completion, tag, attached⟩
    obtain ⟨notSafe, notHalted⟩ := Mode.not_stopped mode
    obtain ⟨sent, lower, retry, tags, whole, -⟩ := answered.exec notSafe notHalted
    let t : State := { s with sent := sent, lower := lower, lowerRetry := retry, tags := tags }
    let v : State := t.raiseDurable k
    have handed : t.handOn info (parseAnswer bytes) = v.groupFenceOk n :=
      State.handOn_groupFence (s := t) mode count ok purpose ref
    rw [handed] at whole
    have lower_iff : v.lowerCommitted n = true ↔ _ := State.lowerCommitted_iff_state
    obtain ⟨frame, others⟩ := State.groupFenceOk_frame (s := v) found serial state only
    refine ⟨_, whole, fun all => ?_, fun ⟨q, h, m, found', serial', lower, uncommitted⟩ => ?_, others,
      fun base q h m window all found' serial' state' complete ripe => ?_, ?_⟩
    · exact State.group?_groupFenceOk_self (s := v) found serial state only (lower_iff.2 all)
    · refine State.group?_groupFenceOk_held (s := v) found serial state only
        (Bool.eq_false_iff.2 fun all => ?_)
      rcases lower_iff.1 all q h m found' serial' lower with st | st | st <;> simp [st] at uncommitted
    · refine State.group?_groupFenceOk_follows (s := v) (base := base) found serial state only ?_
        (lower_iff.2 all) found' serial' state' complete ?_
      · intro q k serialQ
        obtain ⟨h, foundQ, serialH⟩ := State.serialOf_eq_some.1 serialQ
        exact window q h k foundQ serialH
      · intro j k serialJ lowerJ
        obtain ⟨i, foundJ, serialI⟩ := State.serialOf_eq_some.1 serialJ
        refine (ripe j i k foundJ serialI lowerJ).imp (fun st => ?_) (Or.imp_right fun st => ?_)
        · exact ⟨i, foundJ, (GroupState.isCommitted_iff _).2 st⟩
        · exact ⟨i, foundJ, st⟩
    · rw [frame]
      exact ⟨rfl, rfl, rfl, rfl, rfl, rfl, rfl⟩
  · intro bytes s info k f answered purpose count mode ok flight
    obtain ⟨notSafe, notHalted⟩ := Mode.not_stopped mode
    obtain ⟨sent, lower, retry, tags, whole, ended⟩ := answered.exec notSafe notHalted
    let t : State := { s with sent := sent, lower := lower, lowerRetry := retry, tags := tags }
    have handed : t.handOn info (parseAnswer bytes) = _ := State.handOn_fenceA (s := t) mode count ok purpose
    rw [handed] at whole
    refine ⟨_, whole, ?_, rfl, ended _ rfl, rfl, rfl, rfl, rfl, rfl, rfl, rfl⟩
    simp [State.withFlight, State.withCkpt, t, flight]
  · intro bytes s info k gen f covered freed answered purpose count mode ok flight generation covers frees
    obtain ⟨notSafe, notHalted⟩ := Mode.not_stopped mode
    obtain ⟨sent, lower, retry, tags, whole, ended⟩ := answered.exec notSafe notHalted
    let t : State := { s with sent := sent, lower := lower, lowerRetry := retry, tags := tags }
    let v : State := t.raiseDurable k
    have handed : t.handOn info (parseAnswer bytes) = v.retire f :=
      State.handOn_fenceB (s := t) mode count ok purpose flight
    rw [handed] at whole
    obtain ⟨groups, retired, gone, kept⟩ := State.retire_eq (s := v) generation covers frees
    let left := v.runRetired f gen freed groups
    obtain ⟨frame, free⟩ := left.reserve_of_spaceWait_frame _ retired
    refine ⟨_, whole, congrArg State.ckpt frame, congrArg State.staging frame, congrArg State.credits frame,
      congrArg State.marks frame, ended _ (congrArg State.tags frame), (congrArg State.mode frame :),
      (congrArg State.faults frame :), (congrArg State.streams frame :), (congrArg State.serial frame :),
      (congrArg State.reads frame :), fun r g cov => free r (gone r g cov), fun waits => ?_,
      fun c r rest g head waits config queue position front uncovered => ?_⟩
    · have untested : v.retire f = left := retired.trans (if_neg (Bool.eq_false_iff.1 waits))
      exact ⟨(congrArg State.journal untested :), fun r g found uncovered =>
        (congrArg (State.group? · r) untested).trans (kept r g found uncovered)⟩
    · have tested : v.retire f = left.reserve := retired.trans (if_pos waits)
      obtain ⟨others, outcome⟩ :=
        State.reserve_runRetired (s := v) mode waits config queue position (kept r g front uncovered)
      intro lines free
      rw [tested]
      exact ⟨fun q h other found uncovered => (others q other).trans (kept q h found uncovered), outcome⟩

end Sys2Proof.Machine
end

section
/-! PROOFS. What the grant of each source sends, and how its owner moves on (R59, R62, R63, R74 to R76, R80,
R81, R86 to R92, R104, R109, R120 to R130, R145, R189). -/

namespace Sys2Proof.Machine

variable {s : State} {src : Source} {o : Offer} {n t : Nat}

/-! ### A grant with no claim held -/

/-- The state from which a granted packet's owner moves on: the packet is sent, its tag taken, and a fence has
moved the granted mark (R183, R186, R189). -/
def State.granting (s : State) (src : Source) (o : Offer) : State :=
  ((State.takeTag
    { s with sent := [], robin := (src.position + 1) % 7, claims := s.claims.keep fun h => h != src }
    o.tag).markFence o.body).sendLower o.body

/-- A grant is that, and its owner's move. -/
theorem State.grant_eq (s : State) (src : Source) (o : Offer) :
    State.grant { s with sent := [] } src o = (s.granting src o).granted o src := rfl

/-- The source examined first is granted the packet it offers, and its owner moves on to `u`. -/
theorem State.GrantsFrom.effect (h : s.GrantsFrom n) {rest : List Source}
    (order : Source.circle.rotateLeft n = src :: rest) (offered : s.offer src = some o)
    (fits : o.body.charge.fits s.lowerAvailable = true) {u : State}
    (owner : (s.granting src o).granted o src = u) {P : State → Prop} (holds : P u) :
    EffectOf .arbiterGrant s P := by
  refine ⟨u, ?_, holds⟩
  rw [h.grants order offered fits, State.grant_eq, owner]

/-- A source that the mode permits offers the packet it has ready (R188). -/
theorem State.offer_eq (permitted : src.permitted s.mode = true) : s.offer src = s.ready src :=
  if_pos permitted

/-- JOURNAL and CHECKPOINT are permitted in OPERATING and in HOLDUP (R188). -/
theorem Source.permitted_of_working {m : Mode} (mode : m = .operating ∨ m = .holdup) :
    Source.journal.permitted m = true ∧ Source.checkpoint.permitted m = true := by
  rcases mode with mode | mode <;> rw [mode] <;> exact ⟨rfl, rfl⟩

/-- A tag that was free is OUTSTANDING once the packet that takes it is granted (R183). -/
theorem State.tag_granting {info : TagInfo} (free : s.freeTag = some t) (takes : o.tag = some (t, info)) :
    (s.granting src o).tag t = .outstanding info := by
  have inTable : t < s.tags.length := (List.findIdx?_eq_some_iff_getElem.1 free).1
  obtain ⟨body, tag⟩ := o
  obtain rfl : tag = some (t, info) := takes
  cases body <;>
    simp [State.granting, State.takeTag, State.markFence, State.markGranted, State.sendLower,
      State.chargeLower, State.emit, State.tag, State.setTag, List.getD_eq_getElem?_getD, inTable]

/-! ### Fences and reads under a free tag (R182, R183) -/

/-- A fence under tag `t`, with the pass-send count it records. -/
def State.fenceOffer (s : State) (t : Nat) (owner : Owner) (purpose : Purpose) (ref : TagRef) : Offer :=
  { body := .fence t
    tag := some (t, { owner := owner, purpose := purpose, ref := ref, passCount := some s.marks.passSend
                      detached := false }) }

/-- A read under tag `t`. -/
def readOffer (t : Nat) (owner : Owner) (ref : TagRef) (addr : Addr) (length : Nat) : Offer :=
  { body := .read addr length t
    tag := some (t, { owner := owner, purpose := .read, ref := ref, passCount := none, detached := false }) }

/-- A fence takes the lowest free tag; with none free nothing is offered. -/
theorem State.offerFence_of_free (free : s.freeTag = some t) (owner : Owner) (purpose : Purpose)
    (ref : TagRef) : s.offerFence owner purpose ref = some (s.fenceOffer t owner purpose ref) := by
  rw [State.offerFence, free]
  rfl

theorem State.offerFence_of_none (allTaken : s.freeTag = none) (owner : Owner) (purpose : Purpose)
    (ref : TagRef) : s.offerFence owner purpose ref = none := by
  rw [State.offerFence, allTaken]
  rfl

theorem State.offerRead_of_free (free : s.freeTag = some t) (owner : Owner) (ref : TagRef) (addr : Addr)
    (length : Nat) : s.offerRead owner ref addr length = some (readOffer t owner ref addr length) := by
  rw [State.offerRead, free]
  rfl

/-- A mark falls short of a number (R108). -/
theorem atOrBeyond_eq_false_iff (x n : Num32) :
    atOrBeyond x n = false ↔ x ≠ n ∧ earlier n x = false := by
  rw [← Bool.not_eq_true, atOrBeyond_iff, not_or, Bool.not_eq_true]

/-! ### PASS-DRAIN (R62, R63, R145) -/

section PassDrain

variable {pre post : List Entry} {e : Entry} (list : s.staging.entries = pre ++ e :: post)

include list

/-- The first entry that satisfies `p`, and the list without it. -/
theorem State.find?_entries {p : Entry → Bool} (first : p e = true) (before : ∀ x ∈ pre, p x = false) :
    s.staging.entries.find? p = some e ∧ s.staging.entries.eraseP p = pre ++ post := by
  have others : ∀ x ∈ pre, (!p x) = true := fun x hx => by simp [before x hx]
  refine ⟨List.find?_eq_some_iff_append.2 ⟨first, pre, post, list, others⟩, ?_⟩
  rw [list, List.eraseP_append_right _ fun x hx => by simp [before x hx], List.eraseP_cons_of_pos first]

variable (sendable : s.sendable e = true) (before : ∀ x ∈ pre, s.sendable x = false)

include sendable before

/-- PASS-DRAIN offers the oldest sendable entry (R62). -/
theorem State.offerPass_of_sendable :
    s.offerPass = some (offerWrite .inPlace e.addr e.data e.poison) := by
  simp only [State.offerPass, State.drainEntry, (State.find?_entries list sendable before).1]

/-- The entry sent leaves the staging store, its credits come back, and it is counted (R51, R63, R108). -/
theorem State.passGranted_of_sendable (kind : WriteKind) (addr : Addr) (data : List Byte) (poison : Bool) :
    s.passGranted (.write kind addr data poison) = { s with
      staging :=
        { entries := pre ++ post
          freeEntries := s.staging.freeEntries + 1
          freeUnits := s.staging.freeUnits + unitsOf e.length }
      credits := s.credits.giveBack s.mode.advertises { wh := 1, wd := unitsOf e.length, rd := 0 }
      marks := { s.marks with passSend := s.marks.passSend + 1#32 } } := by
  obtain ⟨found, erased⟩ := State.find?_entries list sendable before
  simp only [State.passGranted, State.freeEntryOnce, found, erased, State.returnCredits, State.countPassSend]

end PassDrain

/-- With nothing sendable, PASS-DRAIN asks for the final fence in a hold-up while the granted mark is short of
the pass target (R145). -/
theorem State.offerPass_of_holdup {target : Num32} (mode : s.mode = .holdup)
    (unsendable : ∀ e ∈ s.staging.entries, s.sendable e = false) (aimed : s.hold.target = some target) :
    s.offerPass =
      if s.marks.granted ≠ target ∧ earlier target s.marks.granted = false then
        s.offerFence .holdup .finalFence .none
      else none := by
  have drained : s.drainEntry = none := List.find?_eq_none.2 fun e he => by simp [unsendable e he]
  simp only [State.offerPass, drained, State.finalFenceWanted, aimed, Option.any_some, mode, true_and,
    Bool.not_eq_true', atOrBeyond_eq_false_iff]

/-! ### JOURNAL (R74, R75, R80, R81) -/

/-- Every line of the journal region has 64 bytes. -/
theorem length_dataLine {data : List Byte} (short : data.length ≤ 64) : (dataLine data).length = 64 := by
  simp [dataLine]
  omega

theorem length_descriptorLine (epoch serial : Num32) (index count length : Nat) (target : Addr)
    (data : List Byte) : (descriptorLine epoch serial index count length target data).length = 64 :=
  length_recordLine _ (by simp)

theorem length_commitLine (epoch serial : Num32) (stream count : Nat) (sig : Sig) (start : Pos) :
    (commitLine epoch serial stream count sig start).length = 64 :=
  length_recordLine _ (by simp)

theorem length_anchorLine (a : Anchor) : (anchorLine a).length = 64 :=
  length_recordLine _ (by simp)

/-- A line of 64 bytes is charged four data units (R182). -/
theorem charge_of_line {kind : WriteKind} {addr : Addr} {line : List Byte} (size : line.length = 64)
    (fits : Amount.fits { wh := 1, wd := 4, rd := 0 } s.lowerAvailable = true) :
    (offerWrite kind addr line false).body.charge.fits s.lowerAvailable = true := by
  rw [offerWrite, LowerBody.charge, size]
  exact fits

section Journal

variable {r : Nat} {g : Group} {phase : JournalPhase} {c : JournalConfig} {epoch serial : Num32} {start : Pos}
  (current : s.journal.current = some { record := r, phase := phase }) (found : s.group? r = some g)

section Offers

variable (config : s.config = some c) (epochSet : s.journal.epoch = some epoch) (begun : g.start = some start)
  (closed : g.serial = some serial)

include current found config epochSet begun closed

/-- A body line of the current group: a member's descriptor, or its data. -/
theorem State.offerJournal_of_body {k m : Nat} {e : Entry} (body : phase = .body k)
    (listed : g.members[k / 2]? = some m) (staged : s.member? r m = some e) :
    s.offerJournal = some (offerWrite .journal (c.posAddr (start + BitVec.ofNat 48 k))
      (if k % 2 = 0 then descriptorLine epoch serial (k / 2) g.count e.length e.addr e.data
      else dataLine e.data) false) := by
  simp [State.offerJournal, current, config, epochSet, found, begun, closed, body, State.bodyLine, listed,
    staged]

/-- The current group's commit line. -/
theorem State.offerJournal_of_commitLine (commit : phase = .commitLine) :
    s.offerJournal = some (offerWrite .journal (c.posAddr (start + BitVec.ofNat 48 (2 * g.count)))
      (commitLine epoch serial g.stream g.count g.sig start) false) := by
  simp [State.offerJournal, current, config, epochSet, found, begun, closed, commit]

/-- The current group's fence. -/
theorem State.offerJournal_of_fence (fence : phase = .fence) :
    s.offerJournal = s.offerFence .journal .groupFence (.serial serial) := by
  simp [State.offerJournal, current, config, epochSet, found, begun, closed, fence]

end Offers

include current

include found in
/-- After a body line the next one follows, or the commit line. -/
theorem State.journalGranted_of_body {k : Nat} (body : phase = .body k) :
    s.journalGranted = { s with journal := { s.journal with
      current := some
        { record := r, phase := if k + 1 < 2 * g.count then .body (k + 1) else .commitLine } } } := by
  simp [State.journalGranted, current, body, found, State.withJournal]

/-- After the commit line the fence follows. -/
theorem State.journalGranted_of_commitLine (commit : phase = .commitLine) :
    s.journalGranted =
      { s with journal := { s.journal with current := some { record := r, phase := .fence } } } := by
  simp [State.journalGranted, current, commit, State.withJournal]

/-- With its fence sent the group is COMMITTING and no longer the current one. -/
theorem State.journalGranted_of_fence (fence : phase = .fence) :
    s.journalGranted = { s.modifyGroup r fun g => { g with state := .committing } with
      journal := { s.journal with current := none } } := by
  simp only [State.journalGranted, current, fence]
  rfl

end Journal

/-- The changed group reads as changed, every other as before. -/
theorem State.group?_of_modifyGroup {r : Nat} {g : Group} (found : s.group? r = some g)
    (f : Group → Group) :
    (s.modifyGroup r f).group? r = some (f g) ∧ ∀ q, q ≠ r → (s.modifyGroup r f).group? q = s.group? q := by
  refine ⟨?_, fun q other => ?_⟩
  · rw [State.group?_modifyGroup, if_pos rfl, found]
    rfl
  · rw [State.group?_modifyGroup, if_neg (Ne.symm other)]

/-! ### APPLY (R59, R86, R87, R103) -/

/-- An earlier PASS entry stands on a line (R59). -/
theorem State.passOnLineBefore_iff (line : Nat) (n : Num32) : s.passOnLineBefore line n = true ↔
    ∃ x ∈ s.staging.entries, x.isPass = true ∧ lineOf x.addr = line ∧ earlier x.intake n = true := by
  simp [State.passOnLineBefore, and_assoc]

/-- An earlier read of a line has no answer yet (R103). -/
theorem State.readOnLineBefore_iff (line : Nat) (n : Num32) : s.readOnLineBefore line n = true ↔
    ∃ i rec addr k, s.read? i = some rec ∧ rec.kind = .read addr k ∧ lineOf addr = line ∧
      earlier rec.intake n = true ∧ (rec.state = .held ∨ ∃ t, rec.state = .issued t) := by
  simp only [State.readOnLineBefore, List.any_eq_true, Prod.exists, State.mem_liveReads]
  refine exists_congr fun i => exists_congr fun rec => ?_
  cases kind : rec.kind <;> cases state : rec.state <;> simp

/-- The staging store with member `m` of record `r` APPLIED. -/
def Staging.applied (st : Staging) (r m : Nat) : Staging :=
  { st with
    entries := st.entries.map fun x =>
      if x.isMember r m then { x with kind := .member r m .applied } else x }

theorem State.mapEntries_toApplied (s : State) (r m : Nat) :
    s.mapEntries (Entry.isMember r m) EntryKind.toApplied = { s with staging := s.staging.applied r m } := by
  have kinds : (s.staging.entries.map fun x =>
      if x.isMember r m then { x with kind := x.kind.toApplied } else x) =
      (s.staging.applied r m).entries := by
    refine List.map_congr_left fun x _ => ?_
    split
    · next isMember =>
      cases kind : x.kind with
      | pass st => simp [Entry.isMember, kind] at isMember
      | member r' m' st =>
        obtain ⟨rfl, rfl⟩ : r' = r ∧ m' = m := by simpa [Entry.isMember, kind] using isMember
        rfl
    · rfl
  rw [State.mapEntries, kinds]
  rfl

section Apply

variable {r k m : Nat} {g : Group} {e : Entry} {close : Num32}
  (taken : s.apply = some { record := r, next := k }) (found : s.group? r = some g)
  (listed : g.members[k]? = some m)

include taken found listed

/-- APPLY offers its next member unless something earlier stands on the line. -/
theorem State.offerApply_eq (staged : s.member? r m = some e) (closed : g.closeIntake = some close) :
    s.offerApply =
      if s.passOnLineBefore (lineOf e.addr) close || s.readOnLineBefore (lineOf e.addr) close then none
      else some (offerWrite .inPlace e.addr e.data false) := by
  simp [State.offerApply, State.applyMember, taken, found, listed, staged, closed]

/-- The entry sent is APPLIED, and the next member follows (R86). -/
theorem State.applyGranted_of_next (more : k + 1 < g.count) : s.applyGranted =
    { s with staging := s.staging.applied r m, apply := some { record := r, next := k + 1 } } := by
  simp [State.applyGranted, taken, found, listed, State.mapEntries_toApplied, more]

/-- The entry sent is APPLIED, and with it the group (R87). -/
theorem State.applyGranted_of_last (last : g.count ≤ k + 1) : s.applyGranted =
    { s.modifyGroup r fun g => { g with state := .applied } with
      staging := s.staging.applied r m, apply := none } := by
  simp [State.applyGranted, taken, found, listed, State.mapEntries_toApplied, Nat.not_lt.mpr last,
    State.modifyGroup]

end Apply

/-! ### CHECKPOINT, READ-ISSUE, FLUSH-FENCE (R90 to R92, R104, R109) -/

section Checkpoint

variable {f : CkptFlight} (flight : s.ckpt.flight = some f)

include flight

/-- Fence A is sent (R90). -/
theorem State.ckptGranted_of_fenceA (phase : f.phase = .fenceA) :
    s.ckptGranted = { s with ckpt := { s.ckpt with flight := some { f with sentA := true } } } := by
  simp [State.ckptGranted, State.withFlight, State.withCkpt, flight, phase]

/-- The anchor is sent, and fence B follows (R91). -/
theorem State.ckptGranted_of_anchor (phase : f.phase = .anchor) :
    s.ckptGranted = { s with ckpt := { s.ckpt with
      flight := some { f with sentAnchor := true, phase := .fenceB } } } := by
  simp [State.ckptGranted, State.withFlight, State.withCkpt, flight, phase]

/-- Fence B is sent (R92). -/
theorem State.ckptGranted_of_fenceB (phase : f.phase = .fenceB) :
    s.ckptGranted = { s with ckpt := { s.ckpt with flight := some { f with sentB := true } } } := by
  simp [State.ckptGranted, State.withFlight, State.withCkpt, flight, phase]

/-- Fence A and fence B are offered once each (R90, R92). -/
theorem State.offerCheckpoint_of_fence :
    (f.phase = .fenceA → s.offerCheckpoint =
      if f.sentA then none else s.offerFence .checkpoint .fenceA .none) ∧
    (f.phase = .fenceB → s.offerCheckpoint =
      if f.sentB then none else s.offerFence .checkpoint .fenceB .none) :=
  ⟨fun phase => by simp [State.offerCheckpoint, flight, phase],
    fun phase => by simp [State.offerCheckpoint, flight, phase]⟩

/-- The anchor of the next generation is offered to its slot (R76, R91). -/
theorem State.offerCheckpoint_of_anchor {c : JournalConfig} {epoch gen : Num32} (phase : f.phase = .anchor)
    (unsent : f.sentAnchor = false) (config : s.config = some c) (epochSet : s.journal.epoch = some epoch)
    (generation : s.ckpt.generation = some gen) :
    s.offerCheckpoint = some (offerWrite .anchor (c.lineAddr ((gen + 1#32).toNat % 2))
      (anchorLine { epoch := epoch, generation := gen + 1#32, tail := f.newTail
                    nextSerial := f.newNextSerial, size := c.size }) false) := by
  simp [State.offerCheckpoint, flight, phase, unsent, State.ckptAnchor, config, epochSet, generation]

end Checkpoint

/-- The earliest ready read is offered while the lower link is UP. -/
theorem State.offerReadIssue_eq {i length : Nat} {rec : ReadRecord} {addr : Addr} (up : s.lower.state = .up)
    (ready : s.readyRead = some i) (found : s.read? i = some rec) (kind : rec.kind = .read addr length) :
    s.offerReadIssue = s.offerRead .read (.record i) addr length := by
  simp [State.offerReadIssue, up, ready, found, kind]

/-- A waiting global flush has its pass target set with the durable and granted marks short of it (R109). -/
theorem State.flushFenceWanted_iff : s.flushFenceWanted = true ↔
    ∃ i rec bound n, s.read? i = some rec ∧ rec.state = .waiting ∧
      rec.kind = .globalFlush bound (some n) ∧
      (s.marks.durable ≠ n ∧ earlier n s.marks.durable = false) ∧
      s.marks.granted ≠ n ∧ earlier n s.marks.granted = false := by
  simp only [State.flushFenceWanted, List.any_eq_true, Prod.exists, State.mem_liveReads,
    ← atOrBeyond_eq_false_iff]
  refine exists_congr fun i => exists_congr fun rec => ?_
  split
  · next waiting kind => simp [waiting, kind]
  · next other =>
    simp only [Bool.false_eq_true, and_false, false_iff, not_exists]
    rintro bound n ⟨-, waiting, kind, -⟩
    exact other bound n waiting kind

/-! ### RECOVERY's reads (R121, R125) -/

/-- An anchor slot has its answer, or its read is in flight (R121). -/
def Recovery.Asked (r : Recovery) (slot : Nat) : Prop :=
  r.anchorAt slot ≠ none ∨ ∃ x ∈ r.inFlight, x.target = .line slot

/-- The test by which the next slot is found. -/
def Recovery.unasked (r : Recovery) (slot : Nat) : Bool := (r.anchorAt slot).isNone && !r.readingLine slot

theorem Recovery.unasked_iff (r : Recovery) (slot : Nat) : r.unasked slot = true ↔ ¬r.Asked slot := by
  simp [Recovery.unasked, Recovery.readingLine, Recovery.Asked, not_or]

/-- Line 0 is read, then line 1 (R121). -/
theorem Recovery.nextSlot_cases (r : Recovery) :
    (¬r.Asked 0 → r.nextSlot = some 0) ∧ (r.Asked 0 → ¬r.Asked 1 → r.nextSlot = some 1) ∧
      (r.Asked 0 → r.Asked 1 → r.nextSlot = none) := by
  rw [show r.nextSlot = [0, 1].find? r.unasked from rfl]
  refine ⟨fun first => ?_, fun first second => ?_, fun first second => ?_⟩
  · rw [List.find?_cons_of_pos ((r.unasked_iff 0).2 first)]
  · rw [List.find?_cons_of_neg ((r.unasked_iff 0).not.2 (not_not_intro first)),
      List.find?_cons_of_pos ((r.unasked_iff 1).2 second)]
  · rw [List.find?_cons_of_neg ((r.unasked_iff 0).not.2 (not_not_intro first)),
      List.find?_cons_of_neg ((r.unasked_iff 1).not.2 (not_not_intro second)), List.find?_nil]

/-- The lines of the group under examination that may be read: its first alone until its size is known. -/
def Scan.lines (sc : Scan) : Nat := sc.m.elim 1 footprint

/-- A line of the group is neither judged nor in flight (R125). -/
def Recovery.Unread (r : Recovery) (sc : Scan) (offset : Nat) : Prop :=
  offset < sc.lines ∧ sc.offset sc.judged ≤ offset ∧
    ∀ x ∈ r.inFlight, x.target ≠ .position (sc.g + BitVec.ofNat 48 offset)

/-- The test by which the next line is found. -/
def Recovery.isUnread (r : Recovery) (sc : Scan) (offset : Nat) : Bool :=
  decide (sc.offset sc.judged ≤ offset) &&
    !(r.inFlight.any fun x => x.target == .position (sc.g + BitVec.ofNat 48 offset))

theorem Recovery.unread_iff (r : Recovery) (sc : Scan) (offset : Nat) :
    r.Unread sc offset ↔ offset < sc.lines ∧ r.isUnread sc offset = true := by
  simp only [Recovery.isUnread, Recovery.Unread, Bool.and_eq_true, decide_eq_true_eq, Bool.not_eq_true',
    List.any_eq_false, beq_iff_eq, ne_eq]

/-- The first unread line of the group is read next; none once the scan has ended or all are read (R125). -/
theorem Recovery.nextPosition_cases {r : Recovery} {sc : Scan} (found : r.scan = some sc) :
    (sc.ended = false → ∀ offset, r.Unread sc offset → (∀ q, q < offset → ¬r.Unread sc q) →
      r.nextPosition = some (sc.g + BitVec.ofNat 48 offset)) ∧
    (sc.ended = true ∨ (∀ offset, ¬r.Unread sc offset) → r.nextPosition = none) := by
  have live : sc.ended = false → r.nextPosition =
      ((List.range sc.lines).find? (r.isUnread sc)).map fun o => sc.g + BitVec.ofNat 48 o := by
    intro live
    simp only [Recovery.nextPosition, found, live, Scan.lines]
    cases sc.m <;> rfl
  refine ⟨fun goesOn o here before => ?_, ?_⟩
  · obtain ⟨below, isUnread⟩ := (r.unread_iff sc o).1 here
    have first : (List.range sc.lines).find? (r.isUnread sc) = some o := by
      refine List.find?_range_eq_some.2 ⟨isUnread, List.mem_range.2 below, fun q lower => ?_⟩
      rw [Bool.not_eq_true', Bool.eq_false_iff]
      exact fun isUnread => before q lower ((r.unread_iff sc q).2 ⟨lower.trans below, isUnread⟩)
    rw [live goesOn, first, Option.map_some]
  · intro finished
    cases goesOn : sc.ended with
    | true => simp [Recovery.nextPosition, found, goesOn]
    | false =>
      have all := finished.resolve_left (by simp [goesOn])
      have none : (List.range sc.lines).find? (r.isUnread sc) = none := by
        refine List.find?_eq_none.2 fun o inRange isUnread => ?_
        exact all o ((r.unread_iff sc o).2 ⟨List.mem_range.1 inRange, isUnread⟩)
      rw [live goesOn, none, Option.map_none]

/-- The tag reference of a recovery read's target. -/
def RecTarget.ref : RecTarget → TagRef
  | .line index => .line index
  | .position p => .position p

/-- A granted recovery read is in flight. -/
theorem State.recoveryReadGranted_eq (target : RecTarget) (addr : Addr) (length : Nat) :
    s.recoveryReadGranted (readOffer t .recovery target.ref addr length).tag =
      { s with recovery := { s.recovery with
        inFlight := s.recovery.inFlight ++ [{ target := target, tag := t, answer := none }] } } := by
  cases target <;> rfl

/-- A granted recovery read, by the engine. -/
theorem State.recoveryGranted_of_read (phase : s.recovery.phase = .anchors ∨ s.recovery.phase = .scan)
    (target : RecTarget) (addr : Addr) (length : Nat) :
    s.recoveryGranted (readOffer t .recovery target.ref addr length).tag =
      { s with recovery := { s.recovery with
        inFlight := s.recovery.inFlight ++ [{ target := target, tag := t, answer := none }] } } := by
  rw [← State.recoveryReadGranted_eq target addr length]
  rcases phase with phase | phase <;> simp only [State.recoveryGranted, phase]

/-! ### RECOVERY's writes and fences (R120, R124, R129, R130) -/

/-- RECOVERY offers by its engine's phase while the lower link is UP (R120). -/
theorem State.offer_recovery {c : JournalConfig} (mode : s.mode = .recovering) (up : s.lower.state = .up)
    (config : s.config = some c) : s.offer .recovery = s.recoveryPacket c := by
  rw [State.offer_eq (by rw [mode]; rfl)]
  simp [State.ready, State.offerRecovery, up, config]

/-- In ANCHORS the next slot is read (R121). -/
theorem State.recoveryPacket_of_anchors (c : JournalConfig) (phase : s.recovery.phase = .anchors) :
    s.recoveryPacket c = s.recovery.nextSlot.bind fun slot =>
      s.offerRead .recovery (RecTarget.line slot).ref (c.lineAddr slot) 64 := by
  simp only [State.recoveryPacket, phase]
  cases s.recovery.nextSlot <;> rfl

/-- In SCAN the next position is read (R125). -/
theorem State.recoveryPacket_of_scan (c : JournalConfig) (phase : s.recovery.phase = .scan) :
    s.recoveryPacket c = s.recovery.nextPosition.bind fun p =>
      s.offerRead .recovery (RecTarget.position p).ref (c.posAddr p) 64 := by
  simp only [State.recoveryPacket, phase]
  cases s.recovery.nextPosition <;> rfl

section Redo

variable {sc : Scan} (phase : s.recovery.phase = .redo) (found : s.recovery.scan = some sc)

include phase found

/-- In REDO the next member is written to its place (R129). -/
theorem State.recoveryPacket_of_redo (c : JournalConfig) {e : BufferEntry}
    (member : sc.buffer[sc.nextRedo]? = some e) :
    s.recoveryPacket c = some (offerWrite .redo e.target e.data false) := by
  simp [State.recoveryPacket, phase, Recovery.redoWrite, found, member]

theorem State.recoveryGranted_of_redo (tag : Option (Nat × TagInfo)) :
    s.recoveryGranted tag = s.redoGranted sc := by
  simp only [State.recoveryGranted, phase, found]

end Redo

/-- The anchor that closes a normal start is offered, and FENCE 2 follows it (R130). -/
theorem State.recoveryPacket_of_newAnchor (c : JournalConfig) {sc : Scan}
    (phase : s.recovery.phase = .newAnchor) (found : s.recovery.scan = some sc) :
    s.recoveryPacket c = some (offerAnchor c (sc.newAnchor c.size)) := by
  simp [State.recoveryPacket, phase, found]

theorem State.recoveryGranted_of_newAnchor (tag : Option (Nat × TagInfo))
    (phase : s.recovery.phase = .newAnchor) :
    s.recoveryGranted tag = { s with recovery := { s.recovery with phase := .fence2 } } := by
  simp only [State.recoveryGranted, phase, State.withRecovery]

/-- The anchor of a FRESH start is offered, and its fence follows it (R124). -/
theorem State.recoveryPacket_of_freshAnchor (c : JournalConfig) (phase : s.recovery.phase = .freshAnchor) :
    s.recoveryPacket c = some (offerAnchor c (s.freshAnchor c.size)) := by
  simp only [State.recoveryPacket, phase]

theorem State.recoveryGranted_of_freshAnchor (tag : Option (Nat × TagInfo))
    (phase : s.recovery.phase = .freshAnchor) :
    s.recoveryGranted tag = { s with recovery := { s.recovery with phase := .freshFence } } := by
  simp only [State.recoveryGranted, phase, State.withRecovery]

/-- A FRESH start's anchor follows the best valid one, or is the first of its epoch (R124). -/
theorem State.freshAnchor_of_none (size : Nat) (none : s.bestAnchor = .none) : s.freshAnchor size =
    { epoch := s.recovery.epochParam.getD 0#32, generation := 1#32, tail := 0#48, nextSerial := 1#32
      size := size } := by
  simp only [State.freshAnchor, none]

theorem State.freshAnchor_of_some (size : Nat) {slot : Nat} {a : Anchor}
    (best : s.bestAnchor = some (slot, a)) : s.freshAnchor size =
    { epoch := a.epoch + 1#32, generation := a.generation + 1#32, tail := 0#48, nextSerial := 1#32
      size := size } := by
  simp only [State.freshAnchor, best]

/-- In the three fence phases a fence is offered unless one is out (R120). -/
theorem State.recoveryPacket_of_fence (c : JournalConfig) (phase : s.recovery.phase = .fence1 ∨
      s.recovery.phase = .fence2 ∨ s.recovery.phase = .freshFence) :
    s.recoveryPacket c =
      if s.recovery.fenceOut then none else s.offerFence .recovery .recoveryFence .none := by
  rcases phase with phase | phase | phase <;> simp [State.recoveryPacket, phase, State.offerRecoveryFence]

/-- A granted recovery fence is out. -/
theorem State.recoveryGranted_of_fence (tag : Option (Nat × TagInfo)) (phase : s.recovery.phase = .fence1 ∨
      s.recovery.phase = .fence2 ∨ s.recovery.phase = .freshFence) :
    s.recoveryGranted tag = { s with recovery := { s.recovery with fenceOut := true } } := by
  rcases phase with phase | phase | phase <;>
    simp [State.recoveryGranted, phase, State.recoveryFenceGranted, State.withRecovery]

/-- A granted redo write that is not its group's last: the next member follows (R129). -/
theorem State.redoGranted_of_next {sc : Scan} {m : Nat} (found : s.recovery.scan = some sc)
    (size : sc.m = some m) (more : sc.nextRedo + 1 < m) :
    s.redoGranted sc = { s with recovery := { s.recovery with
      scan := some { sc with nextRedo := sc.nextRedo + 1 } } } := by
  simp [State.redoGranted, size, more, State.withScan, State.withRecovery, found]

/-- A granted redo write that is its group's last: the scan goes on behind the group, or ends where no group
can follow (R125, R128, R129). -/
theorem State.redoGranted_of_last {sc : Scan} {m : Nat} {c : JournalConfig} (mode : s.mode = .recovering)
    (config : s.config = some c) (size : sc.m = some m)
    (last : m ≤ sc.nextRedo + 1) (live : sc.ended = false) (quiet : s.recovery.inFlight = []) :
    let g := sc.g + BitVec.ofNat 48 (2 * m + 1)
    let noRoom := decide (c.size / 64 - 2 ≤ (g - sc.sel.tail).toNat + 2)
    s.redoGranted sc = { s with recovery := { s.recovery with
      phase := if noRoom then .fence1 else .scan
      replayed := s.recovery.replayed + 1
      scan := some { sc with
        g := g, s := sc.s + 1#32, m := none, sig := 0#16, judged := g, buffer := [], nextRedo := 0
        ended := noRoom } } } := by
  intro g noRoom
  have room : sc.nextGroup.noRoom c.ring = noRoom := by
    simp only [Scan.noRoom, Scan.span, Scan.nextGroup, size, Option.getD_some]
    rfl
  have active : State.activeScan (s.withRecovery fun r =>
      { r with phase := .scan, replayed := r.replayed + 1, scan := some sc.nextGroup }) =
      some sc.nextGroup := by
    simp [State.activeScan, State.withRecovery, mode, Scan.nextGroup, live]
  rw [State.redoGranted, size, Option.getD_some, if_neg (Nat.not_lt.mpr last), State.examineGroup, active,
    show State.config (s.withRecovery _) = some c from config]
  simp only [room]
  cases noRoom with
  | true =>
    simp [State.endScan, State.withRecovery, Recovery.closeScan, quiet, Scan.nextGroup, size, g, footprint]
  | false => simp [State.withRecovery, Scan.nextGroup, size, live, g, footprint]

/-! ### The grants by source (O49) -/

/-- A granted recovery read is sent under its tag and in flight. -/
theorem State.GrantsFrom.recovery_reads (h : s.GrantsFrom 6)
    {target : RecTarget} {addr : Addr} (phase : s.recovery.phase = .anchors ∨ s.recovery.phase = .scan)
    (offered : s.offer .recovery = s.offerRead .recovery target.ref addr 64) (free : s.freeTag = some t)
    (fits : Amount.fits { wh := 0, wd := 0, rd := 1 } s.lowerAvailable = true) :
    EffectOf .arbiterGrant s fun u =>
      u.sent = [.request s.lower.nextTx (.read addr 64 t)] ∧
        u.tag t = .outstanding
          { owner := .recovery, purpose := .read, ref := target.ref, passCount := none, detached := false } ∧
        u.recovery = { s.recovery with
          inFlight := s.recovery.inFlight ++ [{ target := target, tag := t, answer := none }] } ∧
        u.marks = s.marks := by
  have offer : s.offer .recovery = some (readOffer t .recovery target.ref addr 64) := by
    rw [offered, State.offerRead_of_free free]
  let v := s.granting .recovery (readOffer t .recovery target.ref addr 64)
  have owner : v.recoveryGranted (readOffer t .recovery target.ref addr 64).tag = _ :=
    State.recoveryGranted_of_read (s := v) phase target addr 64
  exact h.effect rfl offer fits owner ⟨rfl, State.tag_granting free rfl, rfl, rfl⟩

/-- A granted recovery write is sent, and the engine goes on to `next`. -/
theorem State.GrantsFrom.recovery_writes (h : s.GrantsFrom 6) (mode : s.mode = .recovering)
    {kind : WriteKind} {addr : Addr} {data : List Byte} {next : Recovery}
    (offered : s.offer .recovery = some (offerWrite kind addr data false))
    (owner : ∀ v : State, v.mode = .recovering → v.config = s.config → v.recovery = s.recovery →
      v.recoveryGranted none = { v with recovery := next })
    (fits : Amount.fits { wh := 1, wd := unitsOf data.length, rd := 0 } s.lowerAvailable = true) :
    EffectOf .arbiterGrant s fun u =>
      u.sent = [.request s.lower.nextTx (.write kind addr data false)] ∧ u.recovery = next ∧
        u.marks = s.marks ∧ u.tags = s.tags ∧ u.staging = s.staging ∧ u.groups = s.groups := by
  exact h.effect rfl offered fits (owner (s.granting .recovery _) mode rfl rfl)
    ⟨rfl, rfl, rfl, rfl, rfl, rfl⟩

/-- A granted fence is sent under its tag, and its owner moves on to `u`, which moves no mark. -/
theorem State.GrantsFrom.fences (h : s.GrantsFrom n) {rest : List Source}
    (order : Source.circle.rotateLeft n = src :: rest) {owner : Owner} {purpose : Purpose} {ref : TagRef}
    (offered : s.offer src = s.offerFence owner purpose ref) (free : s.freeTag = some t)
    (fits : Amount.fits { wh := 0, wd := 0, rd := 1 } s.lowerAvailable = true) {u : State}
    (moves : (s.granting src (s.fenceOffer t owner purpose ref)).granted
      (s.fenceOffer t owner purpose ref) src = u)
    (marks : u.marks = { s.marks with granted := s.marks.passSend }) {P : State → Prop}
    (holds : s.FenceGranted u t owner purpose ref → P u) : EffectOf .arbiterGrant s P := by
  obtain ⟨sent, -, -, tags⟩ := State.granted_frame
    (s.granting src (s.fenceOffer t owner purpose ref)) (s.fenceOffer t owner purpose ref) src
  rw [moves] at sent tags
  refine h.effect order (offered.trans (State.offerFence_of_free free owner purpose ref)) fits moves
    (holds ⟨sent, ?_, marks⟩)
  rw [State.tag, tags]
  exact State.tag_granting free rfl

/-- A granted line of the journal is sent, and the current group's phase moves on to `next`. -/
theorem State.GrantsFrom.journal_writes (h : s.GrantsFrom 1) (mode : s.mode = .operating ∨ s.mode = .holdup)
    {r : Nat} {addr : Addr} {line : List Byte} {next : JournalPhase}
    (offered : s.offerJournal = some (offerWrite .journal addr line false)) (size : line.length = 64)
    (moves : ∀ v : State, v.journal = s.journal → v.groups = s.groups →
      v.journalGranted =
        { v with journal := { v.journal with current := some { record := r, phase := next } } })
    (fits : Amount.fits { wh := 1, wd := 4, rd := 0 } s.lowerAvailable = true) :
    EffectOf .arbiterGrant s fun u =>
      u.sent = [.request s.lower.nextTx (.write .journal addr line false)] ∧
        u.journal = { s.journal with current := some { record := r, phase := next } } ∧
        u.groups = s.groups ∧ u.staging = s.staging ∧ u.marks = s.marks ∧ u.tags = s.tags := by
  have offer : s.offer .journal = some (offerWrite .journal addr line false) :=
    (State.offer_eq (Source.permitted_of_working mode).1).trans offered
  exact h.effect rfl offer (charge_of_line size fits) (moves (s.granting .journal _) rfl rfl)
    ⟨rfl, rfl, rfl, rfl, rfl, rfl⟩

/-- Settles O49, source by source: what is offered, then what the grant leaves at the owner. -/
theorem grantMovesItsOwnerOn : Obligations.GrantMovesItsOwnerOn := by
  unfold Obligations.GrantMovesItsOwnerOn
  refine ⟨?_, ?_, ?_, ?_, ?_, ?_, ?_⟩
  -- PASS-DRAIN's entry, READ-ISSUE's read and CHECKPOINT's anchor, in OPERATING
  · intro s calm mode up unmarked room unclaimed
    have grantsFrom : ∀ n, s.robin = n → s.GrantsFrom n := fun n robin =>
      ⟨calm, up, unmarked, room, unclaimed, robin⟩
    have permitted : ∀ src : Source, src ≠ .recovery → s.offer src = s.ready src := fun src other =>
      State.offer_eq (by rw [mode]; cases src <;> simp_all [Source.permitted])
    refine ⟨fun pre post e robin list sendable before fits => ?_,
      fun i t rec addr length robin ready found kind free fits => ?_,
      fun f c epoch gen robin flight phase unsent config epochSet generation fits => ?_⟩
    · have offered : s.offer .passDrain = _ :=
        (permitted _ (by simp)).trans (State.offerPass_of_sendable list sendable before)
      let v := s.granting .passDrain (offerWrite .inPlace e.addr e.data e.poison)
      have advertises : s.mode.advertises = true := by rw [mode]; rfl
      refine (grantsFrom 0 robin).effect rfl offered fits
        (State.passGranted_of_sendable (s := v) list sendable before .inPlace e.addr e.data e.poison)
        ⟨rfl, rfl, rfl, ?_, rfl, rfl, rfl, rfl⟩
      rw [← advertises]
      rfl
    · have offered : s.offer .readIssue = some (readOffer t .read (.record i) addr length) := by
        rw [permitted _ (by simp), State.ready, State.offerReadIssue_eq up ready found kind,
          State.offerRead_of_free free]
      refine (grantsFrom 4 robin).effect rfl offered fits rfl
        ⟨rfl, ?_, State.tag_granting free rfl, rfl, rfl, rfl⟩
      exact (State.read?_modifyRead _ i i _).trans ((if_pos rfl).trans (congrArg _ found))
    · have offered : s.offer .checkpoint = some _ := (permitted _ (by simp)).trans
        (State.offerCheckpoint_of_anchor flight phase unsent config epochSet generation)
      exact (grantsFrom 3 robin).effect rfl offered (charge_of_line (length_anchorLine _) fits)
        (State.ckptGranted_of_anchor (s := s.granting .checkpoint _) flight phase)
        ⟨rfl, rfl, rfl, rfl, rfl, rfl⟩
  -- JOURNAL: a body line, the commit line, the fence
  · intro s r g phase c epoch serial start grants mode current found config epochSet begun closed writes
    refine ⟨fun k m e body listed staged short fits => ?_, fun commit fits => ?_, fun fence => ?_⟩
    · refine grants.journal_writes mode
        (State.offerJournal_of_body current found config epochSet begun closed body listed staged) ?_
        (fun v same groups => ?_) fits
      · split
        · exact length_descriptorLine ..
        · exact length_dataLine short
      · refine State.journalGranted_of_body (same ▸ current) ?_ body
        rw [State.group?, groups]
        exact found
    · exact grants.journal_writes mode
        (State.offerJournal_of_commitLine current found config epochSet begun closed commit)
        (length_commitLine ..)
        (fun v same _ => State.journalGranted_of_commitLine (same ▸ current) commit) fits
    · have offered : s.offer .journal = s.offerFence .journal .groupFence (.serial serial) :=
        (State.offer_eq (Source.permitted_of_working mode).1).trans
          (State.offerJournal_of_fence current found config epochSet begun closed fence)
      refine ⟨fun allTaken => offered.trans (State.offerFence_of_none allTaken ..), fun t free fits => ?_⟩
      let v := s.granting .journal (s.fenceOffer t .journal .groupFence (.serial serial))
      obtain ⟨own, others⟩ := State.group?_of_modifyGroup (s := v) found
        fun g => { g with state := .committing }
      exact grants.fences rfl offered free fits
        (State.journalGranted_of_fence (s := v) current fence) rfl
        fun granted => ⟨granted, own, others, rfl, rfl⟩
  -- APPLY: nothing behind an earlier access of the line, else the member
  · intro s r k m g e close grants mode taken found listed staged closed passBefore readBefore
    have offered : s.offer .apply = _ := (State.offer_eq (by rw [mode]; rfl)).trans
      (State.offerApply_eq taken found listed staged closed)
    have earlier_iff : (s.passOnLineBefore (lineOf e.addr) close ||
        s.readOnLineBefore (lineOf e.addr) close) = true ↔ passBefore ∨ readBefore := by
      rw [Bool.or_eq_true, State.passOnLineBefore_iff, State.readOnLineBefore_iff]
    refine ⟨fun before => offered.trans (if_pos (earlier_iff.2 before)), fun noPass noRead fits => ?_⟩
    have sends : s.offer .apply = some (offerWrite .inPlace e.addr e.data false) :=
      offered.trans (if_neg (earlier_iff.not.2 (not_or.2 ⟨noPass, noRead⟩)))
    let v := s.granting .apply (offerWrite .inPlace e.addr e.data false)
    obtain ⟨own, others⟩ := State.group?_of_modifyGroup (s := v) found fun g => { g with state := .applied }
    by_cases more : k + 1 < g.count
    · exact grants.effect rfl sends fits (State.applyGranted_of_next (s := v) taken found listed more)
        ⟨rfl, rfl, fun _ => ⟨rfl, rfl⟩, fun last => absurd more (Nat.not_lt.mpr last), fun _ _ => rfl, rfl, rfl,
          rfl, rfl, rfl⟩
    · exact grants.effect rfl sends fits
        (State.applyGranted_of_last (s := v) taken found listed (Nat.not_lt.mp more))
        ⟨rfl, rfl, fun next => absurd next more, fun _ => ⟨rfl, own⟩, others, rfl, rfl, rfl, rfl, rfl⟩
  -- CHECKPOINT: each fence once
  · intro s f grants mode flight
    have ready : s.offer .checkpoint = s.offerCheckpoint :=
      State.offer_eq (Source.permitted_of_working mode).2
    obtain ⟨fenceA, fenceB⟩ := State.offerCheckpoint_of_fence flight
    refine ⟨?_, fun t free fits => ⟨fun phase unsent => ?_, fun phase unsent => ?_⟩⟩
    · rintro (⟨phase, sent⟩ | ⟨phase, sent⟩)
      · rw [ready, fenceA phase, if_pos sent]
      · rw [ready, fenceB phase, if_pos sent]
    · have offered : s.offer .checkpoint = s.offerFence .checkpoint .fenceA .none := by
        simp only [ready, fenceA phase, unsent, Bool.false_eq_true, if_false]
      exact grants.fences rfl offered free fits
        (State.ckptGranted_of_fenceA (s := s.granting .checkpoint _) flight phase) rfl
        fun granted => ⟨granted, rfl, rfl, rfl⟩
    · have offered : s.offer .checkpoint = s.offerFence .checkpoint .fenceB .none := by
        simp only [ready, fenceB phase, unsent, Bool.false_eq_true, if_false]
      exact grants.fences rfl offered free fits
        (State.ckptGranted_of_fenceB (s := s.granting .checkpoint _) flight phase) rfl
        fun granted => ⟨granted, rfl, rfl, rfl⟩
  -- FLUSH-FENCE: only while some flush wants it
  · intro s grants mode wanted
    have wanted_iff : s.flushFenceWanted = true ↔ wanted := State.flushFenceWanted_iff
    have ready : s.offer .flushFence = s.offerFlushFence := State.offer_eq (by rw [mode]; rfl)
    refine ⟨fun unwanted => ready.trans (if_neg (wanted_iff.not.2 unwanted)), fun t isWanted free fits => ?_⟩
    exact grants.fences rfl (ready.trans (if_pos (wanted_iff.2 isWanted))) free fits rfl rfl
      fun granted => ⟨granted, rfl, rfl, rfl, rfl, rfl⟩
  -- PASS-DRAIN's final fence
  · intro s target grants mode unsendable aimed short
    have ready : s.offer .passDrain = _ := (State.offer_eq (by rw [mode]; rfl)).trans
      (State.offerPass_of_holdup mode unsendable aimed)
    refine ⟨fun enough => ready.trans (if_neg enough), fun t isShort free fits => ?_⟩
    exact grants.fences rfl (ready.trans (if_pos isShort)) free fits rfl rfl
      fun granted => ⟨granted, rfl, rfl, rfl, rfl, rfl⟩
  -- RECOVERY, by the engine's phase
  · intro s c grants mode config line place reads writes anchor asked asked0 asked1
    have ⟨_, up, _⟩ := grants
    have packet : s.offer .recovery = s.recoveryPacket c := State.offer_recovery mode up config
    refine ⟨fun phase => ?_, fun sc phase found => ?_, fun sc e m phase found member size => ?_,
      fun phase => ?_, fun sc phase found => ?_, fun phase => ?_⟩
    · obtain ⟨first, second, neither⟩ := s.recovery.nextSlot_cases
      rw [State.recoveryPacket_of_anchors c phase] at packet
      refine ⟨fun unasked t => ?_, fun asked unasked t => ?_, fun asked asked' => ?_⟩
      · exact grants.recovery_reads (.inl phase) (packet.trans (by rw [first unasked]; rfl))
      · exact grants.recovery_reads (.inl phase) (packet.trans (by rw [second asked unasked]; rfl))
      · rw [packet, neither asked asked', Option.bind_none]
    · intro lines unread
      obtain ⟨first, noMore⟩ := Recovery.nextPosition_cases found
      rw [State.recoveryPacket_of_scan c phase] at packet
      have unread_iff : ∀ o, s.recovery.Unread sc o ↔ unread o := by
        intro o
        simp only [Recovery.Unread, Scan.lines, unread, lines]
        cases sc.m <;> rfl
      simp only [unread_iff] at first noMore
      refine ⟨fun goesOn o here before t => ?_, fun finished => ?_⟩
      · exact grants.recovery_reads (.inr phase)
          (packet.trans (by rw [first goesOn o here before]; rfl))
      · rw [packet, noMore finished, Option.bind_none]
    · have offered := packet.trans (State.recoveryPacket_of_redo phase found c member)
      refine ⟨fun more => ?_, fun last live quiet => ?_⟩
      · refine grants.recovery_writes mode offered fun v _ _ same => ?_
        rw [State.recoveryGranted_of_redo (same ▸ phase) (same ▸ found),
          State.redoGranted_of_next (same ▸ found) size more, same]
      · refine grants.recovery_writes mode offered fun v recovering configured same => ?_
        rw [State.recoveryGranted_of_redo (same ▸ phase) (same ▸ found),
          State.redoGranted_of_last recovering (configured.trans config) size last live (same ▸ quiet), same]
    · have fence := packet.trans (State.recoveryPacket_of_fence c phase)
      refine ⟨fun out => fence.trans (if_pos out), fun t idle free fits => ?_⟩
      exact grants.fences rfl (fence.trans (if_neg (by simp [idle]))) free fits
        (State.recoveryGranted_of_fence (s := s.granting .recovery _) _ phase) rfl
        fun granted => ⟨granted, rfl⟩
    · refine grants.recovery_writes mode (packet.trans (State.recoveryPacket_of_newAnchor c phase found))
        fun v _ _ same => ?_
      rw [State.recoveryGranted_of_newAnchor _ (same ▸ phase), same]
    · have offered := packet.trans (State.recoveryPacket_of_freshAnchor c phase)
      have moves : ∀ v : State, v.mode = .recovering → v.config = s.config → v.recovery = s.recovery →
          v.recoveryGranted none = { v with recovery := { s.recovery with phase := .freshFence } } :=
        fun v _ _ same => by rw [State.recoveryGranted_of_freshAnchor _ (same ▸ phase), same]
      refine ⟨fun none => ?_, fun slot a best => ?_⟩
      · rw [State.freshAnchor_of_none c.size none] at offered
        exact grants.recovery_writes mode offered moves
      · rw [State.freshAnchor_of_some c.size best] at offered
        exact grants.recovery_writes mode offered moves

end Sys2Proof.Machine
end

section
/-! PROOFS. A fence that fails (R84, R94, R110, R139, R141, R145): the report MEDIA_ERROR in OPERATING and in
HOLDUP, and that every failed fence makes it with its own serial. -/

namespace Sys2Proof.Machine

variable {s : State} {serial : Option Num32}

/-! ### The entry into HALTED (R116, R139) -/

/-- Failing every record leaves each as its own state has it (R116). -/
theorem State.read?_failReads (i : Nat) : s.failReads.read? i = (s.read? i).bind ReadRecord.failed := by
  rw [s.failReads_spec.reads]
  split
  · rfl
  · next absent =>
    rw [State.mem_readOrder, not_exists] at absent
    rw [Option.eq_none_iff_forall_ne_some.2 absent, Option.bind_none]

/-- The entry into HALTED changes no group, no mark and none of their engines (R139, R173, R178). -/
theorem State.enterHalted_frame (cause : Cause) (f : FaultFields) :
    s.enterHalted cause f =
      { s.appendFault cause f with
        mode := .halted, safeLine := true, lower := s.lower.atHalt, holdTimer := none
        lowerCredits := .zero, claims := .none
        credits := (s.enterHalted cause f).credits, reads := (s.enterHalted cause f).reads
        formed := (s.enterHalted cause f).formed, tags := (s.enterHalted cause f).tags
        streams := (s.enterHalted cause f).streams } :=
  (State.failReads_spec _).frame

/-- Every record has its completion in HALTED (R116). -/
theorem State.done_of_enterHalted {cause : Cause} {f : FaultFields} {i : Nat} {rec : ReadRecord}
    (found : (s.enterHalted cause f).read? i = some rec) : ∃ c, rec.state = .done c := by
  rw [State.enterHalted, State.read?_failReads, Option.bind_eq_some_iff] at found
  obtain ⟨before, -, failed⟩ := found
  exact before.failed_done failed

/-! ### The report MEDIA_ERROR (R139, R141) -/

/-- MEDIA_ERROR in OPERATING halts the part. -/
theorem State.mediaError_of_operating (mode : s.mode = .operating) (f : FaultFields) :
    s.mediaError f = s.enterHalted .mediaError f := by
  rw [State.mediaError, State.reportError, mode]

/-- MEDIA_ERROR in HOLDUP ends the hold-up in SAFE, what is left of the queue discarded (R149). -/
theorem State.mediaError_of_holdup (mode : s.mode = .holdup) (f : FaultFields) :
    s.mediaError f =
      { (s.appendFault .mediaError f).queueDiscarded with
        mode := .safe, safeLine := true, budgetTimer := none
        lower := { s.lower with replayTimer := false } } := by
  rw [State.mediaError, State.reportError, mode]
  exact State.leaveHoldup_eq (congrArg Mode.advertises mode)

/-! ### The fences of the part (R84, R94, R110, R145) -/

/-- A fence whose status is not OK gives no count to the durable mark (R184). -/
theorem State.countFence_of_error {status : ModStatus} (error : status ≠ .ok) (info : TagInfo) :
    s.countFence info status = s :=
  if_neg fun both => error both.1

/-- The serial in the record of a failed fence: a group fence's own, of a checkpoint's fence the last serial
of its run, of a flush fence or a final fence none (R84, R94, R110, R145). -/
def State.FenceSerial (s : State) (info : TagInfo) (serial : Option Num32) : Prop :=
  (∃ n, info.purpose = .groupFence ∧ info.ref = .serial n ∧ serial = some n) ∨
    (info.purpose = .fenceA ∨ info.purpose = .fenceB) ∧
      serial = s.ckpt.flight.map CkptFlight.lastSerial ∨
    (info.purpose = .flushFence ∨ info.purpose = .finalFence) ∧ serial = none

/-- Each of these fences, failed, is a MEDIA_ERROR with its serial. -/
theorem State.handOn_of_fence_error {info : TagInfo} {a : Answer} (error : a.status ≠ .ok)
    (fence : s.FenceSerial info serial) : s.handOn info a = s.mediaError { serial := serial } := by
  rcases fence with ⟨n, purpose, ref, rfl⟩ | ⟨purpose | purpose, rfl⟩ | ⟨purpose | purpose, rfl⟩ <;>
    simp only [State.handOn, purpose, State.countFence_of_error error]
  · simp only [State.handGroupFence, ref, State.groupFence, if_neg error]
  · simp only [State.fenceADone, if_neg error, State.ckptFenceError]
  · simp only [State.fenceBDone, if_neg error, State.ckptFenceError]
  · simp only [State.handPlainFence, if_neg error]
  · simp only [State.handPlainFence, if_neg error]

/-- Settles O14: the failed fence reports MEDIA_ERROR, which halts the part in OPERATING and ends a hold-up in
SAFE; neither touches a group or a mark. -/
theorem fenceErrorStopsThePart : Obligations.FenceErrorStopsThePart := by
  unfold Obligations.FenceErrorStopsThePart
  intro bytes s info serial calm up good seq completion tag attached error fence mode
  have answered : s.Answered bytes info := ⟨calm, up, good, seq, completion, tag, attached⟩
  obtain ⟨notSafe, notHalted⟩ := Mode.not_stopped mode
  obtain ⟨sent, lower, retry, tags, whole, -⟩ := answered.exec notSafe notHalted
  let v : State := { s with sent := sent, lower := lower, lowerRetry := retry, tags := tags }
  have reported : v.handOn info (parseAnswer bytes) = v.mediaError { serial := serial } :=
    State.handOn_of_fence_error error fence
  rw [reported] at whole
  rcases mode with operating | holdup
  · rw [State.mediaError_of_operating (s := v) operating] at whole
    have frame := v.enterHalted_frame .mediaError { serial := serial }
    rw [State.endEvent_of_stopped (.inr (congrArg State.mode frame))] at whole
    refine ⟨_, whole, fun _ => ⟨congrArg State.mode frame, ?_, ?_, congrArg State.holdTimer frame,
        fun i rec found => State.done_of_enterHalted (s := v) found⟩,
      fun other => absurd (operating.symm.trans other) (by decide), congrArg State.safeLine frame,
      (congrArg State.faults frame :), (congrArg State.faultSeq frame :), congrArg State.alert frame,
      (congrArg State.marks frame :), (congrArg State.groups frame :), (congrArg State.staging frame :),
      (congrArg State.journal frame :), (congrArg State.apply frame :), (congrArg State.ckpt frame :),
      (congrArg State.recovery frame :)⟩
    · exact congrArg (fun t => t.lower.state) frame
    · exact congrArg (fun t => t.lower.heldDown) frame
  · rw [State.mediaError_of_holdup (s := v) holdup, State.endEvent_of_stopped (.inl rfl)] at whole
    exact ⟨_, whole, fun other => absurd (holdup.symm.trans other) (by decide), fun _ => ⟨rfl, rfl, rfl⟩,
      rfl, rfl, rfl, rfl, rfl, rfl, rfl, rfl, rfl, rfl, rfl⟩

end Sys2Proof.Machine
end

section
/-! PROOFS. The work of the journal engine, the apply engine and the checkpoint unit taken up (R78, R79, R85,
R89): the front group's reservation, the group the apply engine takes, the run a checkpoint starts over. -/

namespace Sys2Proof.Machine

variable {s : State} {r : Nat} {rest : List Nat} {g : Group}

/-! ### Reservation (R78, R79) -/

/-- Changing a group in use is putting the changed group in its record. -/
theorem State.modifyGroup_eq_set (found : s.group? r = some g) (f : Group → Group) :
    s.modifyGroup r f = { s with groups := s.groups.set r (some (f g)) } := by
  rw [State.modifyGroup, modify_eq_set s.groups r g f found]

/-- A reservation puts the front group in JOURNALING with its lines, and makes it the current one (R78). -/
theorem State.reserveGroup_eq_set (found : s.group? r = some g) (count : Nat) (head : Pos) :
    s.reserveGroup r rest count head =
      { s with
        groups := s.groups.set r
          (some { g with state := .journaling, start := some head, lines := some (footprint count) })
        journal := { s.journal with
          head := some (head + BitVec.ofNat 48 (footprint count)), queue := rest
          current := some { record := r, phase := .body 0 }, spaceWait := false } } := by
  rw [State.reserveGroup, State.modifyGroup_eq_set found]
  rfl

/-- The journal engine works in OPERATING and in HOLDUP (R77). -/
theorem Mode.journals_of_working {m : Mode} (mode : m = .operating ∨ m = .holdup) : m.journals = true := by
  rcases mode with rfl | rfl <;> rfl

/-- RESERVATION in a calm state (R78). -/
theorem exec_reservation (calm : s.calm) :
    exec .reservation s = .next (State.endEvent (State.reserve { s with sent := [] })) :=
  State.event_of_calm calm _

/-! ### The apply engine (R85) -/

/-- The apply engine's candidate is the COMMITTED group behind APPLIED ones alone (R85). -/
theorem State.applyCandidate_of_committed {before after : List (Nat × Group)}
    (closed : s.closedGroups = before ++ (r, g) :: after) (applied : ∀ p ∈ before, p.2.state = .applied)
    (committed : g.state = .committed) : s.applyCandidate = some r := by
  have first : s.closedGroups.find? (fun p => p.2.state != .applied) = some (r, g) := by
    rw [closed, List.find?_append, List.find?_eq_none.2 fun p mem => by simp [applied p mem],
      Option.none_or, List.find?_cons_of_pos (by simp [committed])]
  simp only [State.applyCandidate, first, if_pos committed]

/-- The apply engine, idle in OPERATING, takes its candidate (R85). -/
theorem State.takeApply_of_candidate (mode : s.mode = .operating) (idle : s.apply = none)
    (candidate : s.applyCandidate = some r) (found : s.group? r = some g) :
    s.takeApply =
      { s with
        groups := s.groups.set r (some { g with state := .applying })
        apply := some { record := r, next := 0 } } := by
  simp only [State.takeApply, idle, candidate, if_pos mode, State.modifyGroup_eq_set found]

/-! ### The checkpoint unit (R89) -/

/-- The triggers (a) to (e) of a checkpoint (R89). -/
theorem State.ckptTrigger_iff : s.ckptTrigger = true ↔
    s.params.batch ≤ s.candidateRun.length ∨ s.journal.spaceWait = true ∨ s.redoReport = true ∨
      s.staging.freeEntries < 32 ∨ s.staging.freeUnits < 64 ∨
      ∀ p ∈ s.closedGroups, p.2.state = .applied := by
  simp only [State.ckptTrigger, State.pressure, State.noneMoving, Bool.or_eq_true, decide_eq_true_eq,
    List.all_eq_true, beq_iff_eq, or_assoc]
  rfl

/-- The checkpoint over a candidate run goes from its first serial to the end of its last group (R88, R89). -/
theorem State.newFlight_of_run {first last : Nat × Group} {run : List (Nat × Group)} {a b : Num32}
    {start : Pos} {lines : Nat} (candidates : s.candidateRun = first :: run)
    (final : (first :: run).getLast? = some last) (lowest : first.2.serial = some a)
    (highest : last.2.serial = some b) (begun : last.2.start = some start)
    (reserved : last.2.lines = some lines) :
    s.newFlight = some
      { firstSerial := a, lastSerial := b, newTail := start + BitVec.ofNat 48 lines
        newNextSerial := b + 1#32, phase := .fenceA, sentA := false, sentAnchor := false
        sentB := false } := by
  simp only [State.newFlight, candidates, List.head?_cons, final, lowest, highest, begun, reserved]

/-- With no checkpoint in flight, a candidate run and a trigger, a checkpoint starts in OPERATING (R89). -/
theorem State.startCheckpoint_of_trigger (mode : s.mode = .operating) (landed : s.ckpt.flight = none)
    (run : s.candidateRun ≠ []) (trigger : s.ckptTrigger = true) :
    s.startCheckpoint = s.withCkpt fun c => { c with flight := s.newFlight } :=
  if_pos (by simp [State.mayCheckpoint, mode, landed, run, trigger])

/-- Settles O50: the test of the space by what it finds, the apply engine's candidate, the checkpoint's run. -/
theorem journalWorkIsTakenUp : Obligations.JournalWorkIsTakenUp := by
  unfold Obligations.JournalWorkIsTakenUp
  refine ⟨?_, ?_⟩
  · intro s r rest g head calm mode queue position front
    let v : State := { s with sent := [] }
    have works : v.mode.journals = true := Mode.journals_of_working mode
    refine ⟨fun fits idle => ?_, fun fits busy => ?_, fun full => ?_⟩
    · rw [exec_reservation calm, State.reserve_of_fits (s := v) works queue idle position front fits,
        State.reserveGroup_eq_set (s := v) front]
      rfl
    · rw [exec_reservation calm, State.reserve_of_busy (s := v) works queue busy position front fits]
      rfl
    · rw [exec_reservation calm, State.reserve_of_full (s := v) works queue position front full]
      rfl
  · intro s calm mode
    let v : State := { s with sent := [] }
    refine ⟨fun r g before after idle closed applied committed found => ?_,
      fun first last run a b start lines landed candidates final lowest highest begun reserved trigger => ?_⟩
    · have event : exec .applyTakeGroup s = .next (State.endEvent v.takeApply) := State.event_of_calm calm _
      have candidate : v.applyCandidate = some r :=
        State.applyCandidate_of_committed (s := v) closed applied committed
      rw [event, State.takeApply_of_candidate (s := v) mode idle candidate found]
    · have event : exec .checkpointStart s = .next (State.endEvent v.startCheckpoint) :=
        State.event_of_calm calm _
      have length : s.candidateRun.length = run.length + 1 := by rw [candidates, List.length_cons]
      have triggered : v.ckptTrigger = true := State.ckptTrigger_iff.2 (length ▸ trigger)
      have nonempty : v.candidateRun ≠ [] := candidates ▸ List.cons_ne_nil first run
      rw [event, State.startCheckpoint_of_trigger (s := v) mode landed nonempty triggered,
        State.newFlight_of_run (s := v) candidates final lowest highest begun reserved]
      rfl

end Sys2Proof.Machine
end

section
/-! PROOFS. The journal's lines read back (R74, R75, R207, R208, R211): the fields of a descriptor and of a
commit line at their offsets, and that the scan which expects a group accepts its lines (R126, R127). -/

namespace Sys2Proof.Machine

/-! ### A field within a run of bytes (R207) -/

/-- A field that ends before the join is read from the first run. -/
@[simp] theorem fieldAt_append_left {pre post : List Byte} {off len : Nat}
    (within : off + len ≤ pre.length) : fieldAt (pre ++ post) off len = fieldAt pre off len := by
  rw [fieldAt, slice, List.drop_append_of_le_length (by omega),
    List.take_append_of_le_length (by rw [List.length_drop]; omega), fieldAt, slice]

/-- A field behind the join is read from the second run. -/
@[simp] theorem fieldAt_append_right {pre post : List Byte} {off len : Nat} (behind : pre.length ≤ off) :
    fieldAt (pre ++ post) off len = fieldAt post (off - pre.length) len := by
  rw [fieldAt, slice, List.drop_append, List.drop_eq_nil_of_le behind, List.nil_append, fieldAt, slice]

@[simp] theorem fieldAt_cons_succ (b : Byte) (l : List Byte) (off len : Nat) :
    fieldAt (b :: l) (off + 1) len = fieldAt l off len := rfl

/-- A byte before the join is read from the first run. -/
@[simp] theorem byteAt_append_left {pre post : List Byte} {off : Nat} (within : off < pre.length) :
    byteAt (pre ++ post) off = byteAt pre off := by
  rw [byteAt, List.getD_append _ _ _ _ within, byteAt]

/-- A byte behind the join is read from the second run. -/
@[simp] theorem byteAt_append_right {pre post : List Byte} {off : Nat} (behind : pre.length ≤ off) :
    byteAt (pre ++ post) off = byteAt post (off - pre.length) := by
  rw [byteAt, List.getD_append_right _ _ _ _ behind, byteAt]

@[simp] theorem byteAt_cons_zero (b : Byte) (l : List Byte) : byteAt (b :: l) 0 = b.toNat := rfl

@[simp] theorem byteAt_cons_succ (b : Byte) (l : List Byte) (off : Nat) :
    byteAt (b :: l) (off + 1) = byteAt l off := rfl

/-- A number written into a field reads back where the field is wide enough. -/
@[simp] theorem fieldAt_leBytes {k n : Nat} (fits : n < 256 ^ k) : fieldAt (leBytes k n) 0 k = n := by
  rw [fieldAt, slice, List.drop_zero, List.take_of_length_le (by simp), leNat_leBytes,
    Nat.mod_eq_of_lt fits]

/-- A word written into a field of its width or wider reads back. -/
@[simp] theorem fieldAt_leBytes_toNat {w k : Nat} (x : BitVec w) (wide : w ≤ 8 * k) :
    fieldAt (leBytes k x.toNat) 0 k = x.toNat := by
  refine fieldAt_leBytes (x.isLt.trans_le ?_)
  calc 2 ^ w ≤ 2 ^ (8 * k) := Nat.pow_le_pow_right (by decide) wide
    _ = 256 ^ k := Nat.pow_mul 2 8 k

/-- A CRC-32 written into its four bytes reads back (R208). -/
@[simp] theorem fieldAt_leBytes_crc32 (bytes : List Byte) :
    fieldAt (leBytes 4 (crc32 bytes)) 0 4 = crc32 bytes :=
  fieldAt_leBytes (crc32_lt bytes)

/-- A small number reads back from its byte. -/
theorem toNat_toByte {n : Nat} (small : n < 256) : (toByte n).toNat = n := by
  rw [toByte, BitVec.toNat_ofNat, Nat.mod_eq_of_lt small]

/-! ### A journal line (R208) -/

/-- A field of a journal line is read from its fields. -/
@[simp] theorem fieldAt_recordLine {fields : List Byte} {off len : Nat}
    (within : off + len ≤ fields.length) :
    fieldAt (recordLine fields) off len = fieldAt fields off len := by
  rw [recordLine, withCrc32, List.append_assoc, fieldAt_append_left within]

/-- A byte of a journal line is read from its fields. -/
@[simp] theorem byteAt_recordLine {fields : List Byte} {off : Nat} (within : off < fields.length) :
    byteAt (recordLine fields) off = byteAt fields off := by
  rw [recordLine, withCrc32, List.append_assoc, byteAt_append_left within]

/-- A journal line's own check is good when its fields fit (R208). -/
theorem recordGood_recordLine {fields : List Byte} (fits : fields.length ≤ 60) :
    recordGood (recordLine fields) = true := by
  have size : (fields ++ zeros (60 - fields.length)).length = 60 := by
    rw [List.length_append, length_zeros]
    omega
  rw [recordGood, recordLine, withCrc32, fieldAt_append_right size.le, size, Nat.sub_self,
    fieldAt_leBytes_crc32, List.take_left' size, beq_self_eq_true]

/-! ### The fields of a descriptor and of a commit line (R74, R75, R211) -/

section Lines

variable (epoch serial : Num32)

/-- What a descriptor line reads back as, its check good (R74). -/
theorem descriptorLine_reads {index count length : Nat} (target : Addr) (data : List Byte)
    (smallIndex : index < 256) (smallCount : count < 256) (smallLength : length < 256) :
    let line := descriptorLine epoch serial index count length target data
    recordGood line = true ∧ byteAt line 0 = 0xA1 ∧ fieldAt line 4 4 = epoch.toNat ∧
      fieldAt line 8 4 = serial.toNat ∧ byteAt line 12 = index ∧ byteAt line 13 = count ∧
      byteAt line 14 = length ∧ fieldAt line 16 5 = target.toNat ∧
      fieldAt line 56 4 = crc32 (dataLine data) := by
  refine ⟨recordGood_recordLine (by simp), ?_⟩
  simp [descriptorLine, toNat_toByte, smallIndex, smallCount, smallLength]

/-- What a commit line reads back as, its check good (R75). -/
theorem commitLine_reads {stream count : Nat} (sig : Sig) (start : Pos) (smallCount : count < 256) :
    let line := commitLine epoch serial stream count sig start
    recordGood line = true ∧ byteAt line 0 = 0xA2 ∧ fieldAt line 4 4 = epoch.toNat ∧
      fieldAt line 8 4 = serial.toNat ∧ byteAt line 13 = count ∧ fieldAt line 14 2 = sig.toNat ∧
      fieldAt line 16 6 = start.toNat := by
  refine ⟨recordGood_recordLine (by simp), ?_⟩
  simp [commitLine, toNat_toByte, smallCount]

end Lines

/-! ### The scan of a journaled group (R126, R127) -/

section Scan

variable {sc : Scan} {c : JournalConfig} {k m length : Nat} {target : Addr} {data : List Byte}

/-- A line with the epoch and the serial the scan is at is one it expects (R126). -/
theorem Scan.expects_of_fields {line : List Byte} (epoch : fieldAt line 4 4 = sc.sel.epoch.toNat)
    (serial : fieldAt line 8 4 = sc.s.toNat) : sc.expects line = true := by
  rw [Scan.expects, epoch, serial, beq_self_eq_true, beq_self_eq_true, Bool.and_self]

/-- The commit line the part writes for the group under examination passes (R75, R127). -/
theorem Scan.commitGood_commitLine (few : m ≤ 64) (stream : Nat) :
    sc.commitGood m
      { status := .ok, data := commitLine sc.sel.epoch sc.s stream m sc.sig sc.g } = true := by
  obtain ⟨good, type, epoch, serial, count, sig, start⟩ :=
    commitLine_reads sc.sel.epoch sc.s (stream := stream) (count := m) sc.sig sc.g (by omega)
  simp [Scan.commitGood, good, type, Scan.expects_of_fields epoch serial, count, sig, start]

section Member

variable (index : k < m) (few : m ≤ 64) (short : length ≤ 64)
include index few short

/-- The descriptor the part writes for the member the scan is at passes (R74, R126). -/
theorem Scan.descriptorGood_descriptorLine (known : ∀ n ∈ sc.m, n = m) (nonempty : 1 ≤ length)
    (inPlace : c.targetGood target length = true) :
    sc.descriptorGood c k
      { status := .ok, data := descriptorLine sc.sel.epoch sc.s k m length target data } = true := by
  obtain ⟨good, type, epoch, serial, place, count, size, aim, -⟩ :=
    descriptorLine_reads sc.sel.epoch sc.s (index := k) (count := m) (length := length) target data
      (by omega) (by omega) (by omega)
  have counted : sc.countGood m = true := by
    simp only [Scan.countGood, Bool.and_eq_true, decide_eq_true_eq, Option.all_eq_true, beq_iff_eq]
    exact ⟨⟨by omega, few⟩, fun n mem => (known n mem).symm⟩
  simp [Scan.descriptorGood, good, type, Scan.expects_of_fields epoch serial, place, count, size, aim,
    counted, nonempty, short, inPlace]

/-- The buffer entry a descriptor makes: its target, its length, the check of its data line, no data yet. -/
theorem Scan.takeDescriptor_descriptorLine (epoch serial : Num32) :
    sc.takeDescriptor k (descriptorLine epoch serial k m length target data) =
      { sc with
        m := some m
        sig := (if k = 0 then 0#16 else sc.sig) + BitVec.ofNat 16 (lineOf target)
        buffer := sc.buffer ++
          [{ target := target, length := length, check := BitVec.ofNat 32 (crc32 (dataLine data))
             data := [] }] } := by
  obtain ⟨-, -, -, -, -, count, size, aim, check⟩ :=
    descriptorLine_reads epoch serial (index := k) (count := m) (length := length) target data
      (by omega) (by omega) (by omega)
  simp only [Scan.takeDescriptor, count, size, aim, check, BitVec.ofNat_toNat, BitVec.setWidth_eq]

end Member

/-- A data line passes against the buffer entry that holds its check (R127). -/
theorem Scan.dataGood_dataLine {e : BufferEntry} (member : sc.buffer[k]? = some e)
    (check : e.check = BitVec.ofNat 32 (crc32 (dataLine data))) :
    sc.dataGood k { status := .ok, data := dataLine data } = true := by
  have value : e.check.toNat = crc32 (dataLine data) := by
    rw [check, BitVec.toNat_ofNat, Nat.mod_eq_of_lt (crc32_lt _)]
  simp [Scan.dataGood, member, value]

/-- A data line gives the last buffer entry its data, the padding left out (R74, R127). -/
theorem Scan.takeData_dataLine {before : List BufferEntry} {e : BufferEntry}
    (buffer : sc.buffer = before ++ [e]) (last : before.length = k) (size : e.length = data.length) :
    (sc.takeData k (dataLine data)).buffer = before ++ [{ e with data := data }] := by
  have content : (dataLine data).take e.length = data := by rw [size, dataLine, List.take_left]
  simp only [Scan.takeData, buffer, ← last, List.modify_eq_take_drop, List.take_left, List.drop_left]
  exact congrArg (fun d => before ++ [{ e with data := d }]) content

end Scan

/-- Settles O56: the fields of the lines read back as the scan expects them, and the checks are good. -/
theorem journaledGroupIsAcceptedByTheScan : Obligations.JournaledGroupIsAcceptedByTheScan := by
  unfold Obligations.JournaledGroupIsAcceptedByTheScan
  intro sc c k m length stream target data
  refine ⟨fun index few known size nonempty short inPlace => ?_,
    fun few _ => Scan.commitGood_commitLine few stream⟩
  intro line
  refine ⟨Scan.descriptorGood_descriptorLine index few short known nonempty inPlace, fun last => ?_⟩
  have taken := Scan.takeDescriptor_descriptorLine index few short (sc := sc) (target := target)
    (data := data) sc.sel.epoch sc.s
  rw [taken]
  exact ⟨rfl, rfl, Scan.dataGood_dataLine (last ▸ List.getElem?_concat_length) rfl, _,
    Scan.takeData_dataLine rfl last size, rfl, rfl, rfl⟩

end Sys2Proof.Machine
end

section
/-! PROOFS. What the ULP sends of its own (R106, R161, R180): when a completion may be taken, what taking the
oldest one does, and that otherwise it stays where it is. -/

namespace Sys2Proof.Machine

variable {s : State} {rest : List Formed} {f : Formed} {c : Completion}

/-- COMPLETION_TAKEN in a calm state (R106). -/
theorem exec_completionTaken (calm : s.calm) :
    exec .completionTaken s = .next (State.endEvent (State.takeCompletion { s with sent := [] })) :=
  State.event_of_calm calm _

/-- The ULP's three conditions on a completion's sending (R106, R161, R180). -/
theorem State.mayTakeCompletion_iff : s.mayTakeCompletion = true ↔
    s.upper.state = .up ∧ s.upperRetry.length < 32 ∧ s.credits.due = false := by
  simp only [State.mayTakeCompletion, Bool.and_eq_true, beq_iff_eq, Bool.not_eq_true', decide_eq_true_eq,
    and_assoc]
  exact and_congr_right fun _ => and_comm

/-- A record in DONE stands for its completion (R99, R106). -/
theorem State.formedCompletion_of_done {i : Nat} {rec : ReadRecord} (found : s.read? i = some rec)
    (done : rec.state = .done c) : s.formedCompletion (.record i) = some c := by
  simp only [State.formedCompletion, found, done]

/-- The oldest completion, when one may be taken, leaves the formed ones, is sent, and frees its record
(R106). -/
theorem State.takeCompletion_of_may (may : s.mayTakeCompletion = true) (formed : s.formed = f :: rest)
    (complete : s.formedCompletion f = some c) :
    s.takeCompletion = (State.sendCompletion { s with formed := rest } c).freeFormed f := by
  simp only [State.takeCompletion, formed, if_pos may, complete]

/-- With a condition of the taking unmet, or nothing formed, nothing changes (R106, R161, R180). -/
theorem State.takeCompletion_of_barred
    (barred : s.upper.state ≠ .up ∨ 32 ≤ s.upperRetry.length ∨ s.credits.due = true ∨ s.formed = []) :
    s.takeCompletion = s := by
  unfold State.takeCompletion
  split
  · rfl
  · next waiting =>
    refine if_neg fun may => ?_
    obtain ⟨up, room, idle⟩ := State.mayTakeCompletion_iff.1 may
    rcases barred with down | full | due | empty
    · exact down up
    · exact Nat.not_lt.2 full room
    · simp [idle] at due
    · simp [waiting] at empty

/-- Settles O51: the oldest completion, a record's or a direct one, goes out where the ULP may take it;
each of the other cases leaves nothing to take or fails a condition of the taking. -/
theorem completionIsTakenInOrder : Obligations.CompletionIsTakenInOrder := by
  unfold Obligations.CompletionIsTakenInOrder
  intro s rest i rec c calm
  rw [exec_completionTaken calm]
  refine ⟨fun up room idle => ?_, fun barred => ?_⟩
  · have may : State.mayTakeCompletion { s with sent := [] } = true :=
      State.mayTakeCompletion_iff.2 ⟨up, room, idle⟩
    refine ⟨fun formed found done => ?_, fun formed => ?_⟩
    · have complete : State.formedCompletion { s with sent := [] } (.record i) = some c :=
        State.formedCompletion_of_done found done
      rw [State.takeCompletion_of_may may formed complete]
      rfl
    · rw [State.takeCompletion_of_may may formed rfl]
      rfl
  · rw [State.takeCompletion_of_barred (s := { s with sent := [] }) barred]

end Sys2Proof.Machine
end

section
/-! PROOFS. Start-up recovery (R118, R121 to R132): START's judgement, the selection of an anchor, the
judgement of the scan's next line, and the last fence of a start. -/

namespace Sys2Proof.Machine

variable {s : State} {params : List Byte} {info : TagInfo} {a x : Answer} {c : JournalConfig} {sc : Scan}

/-! ### START (R118, R195) -/

/-- A START with its five parameter bytes passes the form check and is judged (R118, R193). -/
theorem exec_start (calm : s.calm) (fresh e0 e1 e2 e3 : Byte) :
    exec (.start [5#8, fresh, e0, e1, e2, e3]) s =
      .next (State.endEvent (doStart [fresh, e0, e1, e2, e3] { s with sent := [] })) := by
  have form : formGood 5 [5#8, fresh, e0, e1, e2, e3] = true := by simp [formGood, paramsOf]
  rw [exec, execStart, State.event_of_calm calm, State.command, if_pos form]
  rfl

/-- Outside UNCONFIGURED, or with no journal configuration, START is refused BAD_STATE (R195). -/
theorem doStart_of_badState (bad : s.mode ≠ .unconfigured ∨ s.config = none) :
    doStart params s = s.refuse .badState := by
  unfold doStart
  split
  · rfl
  · next unconfigured => exact if_pos (bad.resolve_left unconfigured)

/-- In its state, START is refused BAD_ARGUMENT for an option byte above 1 (R195). -/
theorem doStart_of_badArgument (mode : s.mode = .unconfigured) (config : s.config ≠ none)
    (above : 1 < byteAt params 0) : doStart params s = s.refuse .badArgument := by
  rw [doStart, if_neg (not_not_intro mode), if_neg config, if_pos above]

/-- In its state and with an option of 0 or 1, START starts the part (R118). -/
theorem doStart_of_good (mode : s.mode = .unconfigured) (config : s.config ≠ none)
    (option : byteAt params 0 ≤ 1) :
    doStart params s = s.startPart (byteAt params 0 == 1) (BitVec.ofNat 32 (fieldAt params 1 4)) := by
  rw [doStart, if_neg (not_not_intro mode), if_neg config, if_neg (Nat.not_lt.2 option)]

/-- The hold timer at START: started with its length unless it runs already (R172). -/
theorem orElse_some_eq_ite (running : Option Nat) (length : Nat) :
    (running <|> some length) = if running.isSome = true then running else some length := by
  cases running <;> rfl

/-- Settles O35: the refusals in their order, else the part started with the option and the epoch of the
parameter bytes. -/
theorem startIsJudgedInOrder : Obligations.StartIsJudgedInOrder := by
  unfold Obligations.StartIsJudgedInOrder
  intro s fresh e0 e1 e2 e3 calm
  dsimp only
  rw [exec_start calm]
  refine ⟨fun bad => ?_, fun mode config above => ?_, fun mode config option => ?_⟩
  · rw [doStart_of_badState (s := { s with sent := [] }) bad]
    rfl
  · rw [doStart_of_badArgument (s := { s with sent := [] }) (params := [fresh, e0, e1, e2, e3]) mode config
      above]
    rfl
  · have started := doStart_of_good (s := { s with sent := [] }) (params := [fresh, e0, e1, e2, e3]) mode
      config option
    rw [started]
    simp [State.startPart, State.respond, State.setMode, Mode.isSafeLine, Recovery.started, Recovery.idle,
      fieldAt, slice, leNat, ite_or, orElse_some_eq_ite, byteAt]

/-! ### An answer in RECOVERING (R119, R132, R184) -/

/-- An answer of the form its read asked for is handed on as it is (R184). -/
theorem checkForm_of_length {length : Nat} (form : a.data.length = length) : checkForm a length = a :=
  if_pos (by simp [form])

/-- An answer is handed on with an error unless it is OK or POISONED in the form its read asked for
(R184). -/
theorem checkForm_isError_iff {length : Nat} :
    (checkForm a length).status.isError = true ↔
      ¬((a.status = .ok ∨ a.status = .poisoned) ∧ a.data.length = length) := by
  obtain ⟨status, data⟩ := a
  by_cases form : data.length = length <;> cases status <;> simp [checkForm, ModStatus.isError, form]

/-- A readable answer is handed on as it is, with no error. -/
theorem checkForm_of_readable {length : Nat}
    (readable : (a.status = .ok ∨ a.status = .poisoned) ∧ a.data.length = length) :
    checkForm a length = a ∧ a.status.isError = false := by
  have unchanged := checkForm_of_length readable.2
  refine ⟨unchanged, Bool.eq_false_iff.2 fun error => ?_⟩
  exact checkForm_isError_iff.1 ((congrArg (fun x => x.status.isError) unchanged).trans error) readable

/-- An anchor read's answer reaches the engine in RECOVERING (R119, R121). -/
theorem State.handOn_line {slot : Nat} (mode : s.mode = .recovering) (purpose : info.purpose = .read)
    (ref : info.ref = .line slot) : s.handOn info a = s.anchorAnswer slot (checkForm a 64) := by
  simp only [State.handOn, purpose, State.handRecordRead, State.readLength, ref, State.recoveryRead,
    if_pos mode]

/-- A journal read's answer reaches the engine in RECOVERING (R119, R125). -/
theorem State.handOn_position {p : Pos} (mode : s.mode = .recovering) (purpose : info.purpose = .read)
    (ref : info.ref = .position p) : s.handOn info a = s.positionAnswer p (checkForm a 64) := by
  simp only [State.handOn, purpose, State.handRecordRead, State.readLength, ref, State.recoveryRead,
    if_pos mode]

/-- MEDIA_ERROR in RECOVERING halts the part (R132, R139). -/
theorem State.mediaError_of_recovering (mode : s.mode = .recovering) (f : FaultFields) :
    s.mediaError f = s.enterHalted .mediaError f := by
  rw [State.mediaError, State.reportError, mode]

/-- A command whose event halts the part out of RECOVERING: HALTED with its lines, the record at the end of
the list, the journal and the serial counter as they were (R139, R173). -/
theorem After.of_enterHalted {i : Instr} {v : State} {cause : Cause} {f : FaultFields}
    (mode : v.mode = .recovering) (whole : exec i s = .next (v.enterHalted cause f).endEvent) :
    After i s fun t => t.mode = .halted ∧ t.safeLine = true ∧ t.lower.heldDown = true ∧
      t.faults = pushFault v.faults
        { v.record cause .recovering with
          stream := f.stream, serial := f.serial, addr := f.addr, count := f.count, link := f.link } ∧
      t.journal = v.journal ∧ t.serial = v.serial := by
  have frame := v.enterHalted_frame cause f
  rw [State.appendFault, mode] at frame
  rw [State.endEvent_of_stopped (.inr (congrArg State.mode frame))] at whole
  exact ⟨_, whole, congrArg State.mode frame, congrArg State.safeLine frame,
    congrArg (fun t => t.lower.heldDown) frame, (congrArg State.faults frame :),
    (congrArg State.journal frame :), (congrArg State.serial frame :)⟩

/-! ### The anchors (R121 to R124) -/

/-- An unreadable anchor in a normal start is a MEDIA_ERROR with its line's address (R121, R132). -/
theorem State.anchorAnswer_of_error {slot : Nat} (mode : s.mode = .recovering) (config : s.config = some c)
    (normal : s.recovery.kind = some .normal) (error : a.status.isError = true) :
    s.anchorAnswer slot a = (s.withRecovery fun r => r.recordAnchor slot a).enterHalted .mediaError
      { addr := some (c.lineAddr slot) } := by
  have recorded : State.mode (s.withRecovery fun r => r.recordAnchor slot a) = .recovering := mode
  rw [← State.mediaError_of_recovering recorded]
  simp [State.anchorAnswer, Recovery.recordAnchor, normal, error, config]

/-- The second anchor's answer in a FRESH start, of whatever form: the engine goes on to write an anchor
(R121, R124). -/
theorem State.anchorAnswer_of_fresh (first : s.recovery.anchor0 = some x)
    (fresh : s.recovery.kind = some .fresh) :
    s.anchorAnswer 1 a =
      { s with recovery := { s.recovery.recordAnchor 1 a with phase := .freshAnchor } } := by
  simp [State.anchorAnswer, State.judgeAnchors, Recovery.recordAnchor, State.withRecovery, first, fresh]

/-- The second anchor's readable answer in a normal start: the engine selects one (R121, R123). -/
theorem State.anchorAnswer_of_normal (first : s.recovery.anchor0 = some x)
    (normal : s.recovery.kind = some .normal) (read : a.status.isError = false) :
    s.anchorAnswer 1 a = (s.withRecovery fun r => r.recordAnchor 1 a).selectAnchor := by
  simp [State.anchorAnswer, State.judgeAnchors, Recovery.recordAnchor, State.withRecovery, first, normal,
    read]

/-- A slot whose answer is recorded has the valid anchor of that answer, if it is one (R122). -/
theorem State.slotAnchor_of_recorded {slot : Nat} (config : s.config = some c)
    (recorded : s.recovery.anchorAt slot = some a) : s.slotAnchor slot = validAnchor c.size slot a := by
  simp only [State.slotAnchor, config, recorded]

/-- With no valid anchor the part halts with RECOVERY_FAILED (R123). -/
theorem State.selectAnchor_of_none (noAnchor : s.bestAnchor = none) :
    s.selectAnchor = s.enterHalted .recoveryFailed {} := by
  rw [State.selectAnchor, noAnchor, State.recoveryFailed]

/-- From the best anchor the scan begins (R123). -/
theorem State.selectAnchor_of_some {slot : Nat} {b : Anchor} (best : s.bestAnchor = some (slot, b)) :
    s.selectAnchor =
      { s with recovery := { s.recovery with phase := .scan, scan := some (.start slot b) } } := by
  rw [State.selectAnchor, best]
  rfl

/-- Settles O52: an unreadable anchor of a normal start halts the part, and so do two that are not valid;
else the scan begins from the newer valid one. -/
theorem recoverySelectsItsAnchor : Obligations.RecoverySelectsItsAnchor := by
  unfold Obligations.RecoverySelectsItsAnchor
  intro bytes s info c a0 calm up good seq completion tag purpose ref attached mode config first
  have answered : s.Answered bytes info := ⟨calm, up, good, seq, completion, tag, attached⟩
  obtain ⟨sent, lower, retry, tags, whole, -⟩ := answered.exec (by simp [mode]) (by simp [mode])
  let v : State := { s with sent := sent, lower := lower, lowerRetry := retry, tags := tags }
  have handed : v.handOn info (parseAnswer bytes) = v.anchorAnswer 1 (checkForm (parseAnswer bytes) 64) :=
    State.handOn_line (s := v) mode purpose ref
  rw [handed] at whole
  intro a readable v0 v1 scans halts
  refine ⟨fun fresh => ?_, fun normal => ?_⟩
  · rw [State.anchorAnswer_of_fresh (s := v) first fresh] at whole
    exact ⟨_, whole, mode, rfl, rfl⟩
  have unreadable : ¬readable →
      halts { s.record .mediaError .recovering with addr := some (c.base + 64#40) } := by
    intro unread
    rw [State.anchorAnswer_of_error (s := v) mode config normal (checkForm_isError_iff.2 unread)] at whole
    exact After.of_enterHalted (v := v.withRecovery _) mode whole
  let w : State := v.withRecovery fun r => r.recordAnchor 1 a
  have selects (read : readable) :
      exec (.transactionPacket .lower bytes) s = .next (State.endEvent w.selectAnchor) := by
    obtain ⟨unchanged, noError⟩ := checkForm_of_readable read
    rw [unchanged, State.anchorAnswer_of_normal (s := v) first normal noError] at whole
    exact whole
  have slot0 : w.slotAnchor 0 = v0 := State.slotAnchor_of_recorded config first
  have slot1 : w.slotAnchor 1 = v1 := State.slotAnchor_of_recorded config rfl
  have scansFrom (read : readable) {slot : Nat} {x : Anchor} (best : w.bestAnchor = some (slot, x)) :
      scans slot x := by
    have begun := selects read
    rw [State.selectAnchor_of_some best] at begun
    exact ⟨_, begun, mode, rfl, _, rfl, rfl, rfl, rfl, rfl, rfl, rfl⟩
  refine ⟨unreadable, fun read none0 none1 => ?_, fun x read some0 none1 => scansFrom read ?_,
    fun y read none0 some1 => scansFrom read ?_, fun x y read some0 some1 => ?_⟩
  · have failed := selects read
    rw [State.selectAnchor_of_none (by simp only [State.bestAnchor, slot0, slot1, none0, none1])] at failed
    exact After.of_enterHalted (v := w) mode failed
  · simp only [State.bestAnchor, slot0, slot1, some0, none1]
  · simp only [State.bestAnchor, slot0, slot1, none0, some1]
  · split
    · next newer => exact scansFrom read (by simp [State.bestAnchor, slot0, slot1, some0, some1, newer])
    · next older => exact scansFrom read (by simp [State.bestAnchor, slot0, slot1, some0, some1, older])

/-! ### The scan (R125 to R128) -/

/-- The one read in flight answered at the judged position: its line is judged, and nothing is left in
flight to judge after it (R125). -/
theorem State.positionAnswer_of_awaited {tag : Nat} (mode : s.mode = .recovering)
    (config : s.config = some c) (phase : s.recovery.phase = .scan) (scan : s.recovery.scan = some sc)
    (live : sc.ended = false)
    (flight : s.recovery.inFlight = [{ target := .position sc.judged, tag := tag, answer := none }]) :
    s.positionAnswer sc.judged a =
      State.judgeLine { s with recovery := { s.recovery with inFlight := [] } } c sc a := by
  have active : State.activeScan (s.withRecovery fun r => r.holdAnswer sc.judged a) = some sc := by
    simp [State.activeScan, State.withRecovery, Recovery.holdAnswer, mode, phase, scan, live]
  have arrived : (s.recovery.holdAnswer sc.judged a).answerOf sc.judged = some a := by
    simp [Recovery.holdAnswer, Recovery.answerOf, flight]
  have running : s.recovery.scan.any Scan.ended = false := by simp [scan, live]
  have one : s.recovery.inFlight.length = 1 := by simp [flight]
  rw [State.positionAnswer, if_neg (Bool.eq_false_iff.1 running), one, State.judgeLines, active,
    State.withRecovery_config, config]
  simp only [State.withRecovery_recovery, arrived, State.judgeLines]
  simp [State.withRecovery, Recovery.holdAnswer, flight, config]

/-- An unreadable line is a MEDIA_ERROR with its address (R132). -/
theorem State.judgeLine_of_error (mode : s.mode = .recovering) (error : a.status.isError = true) :
    s.judgeLine c sc a = s.enterHalted .mediaError { addr := some (c.posAddr sc.judged) } := by
  rw [State.judgeLine, if_pos error, State.mediaError_of_recovering mode]

/-- Behind the last member the line is judged as the commit line (R127). -/
theorem State.judgeLine_of_commit (read : a.status.isError = false)
    (commit : ∃ m, sc.m = some m ∧ 2 * m ≤ sc.offset sc.judged) :
    s.judgeLine c sc a = s.judgeCommit sc (sc.m.getD 0) a := by
  obtain ⟨m, size, behind⟩ := commit
  simp [State.judgeLine, read, size, behind]

section Member

variable (read : a.status.isError = false)
  (member : ¬∃ m, sc.m = some m ∧ 2 * m ≤ sc.offset sc.judged)
include member

/-- The judged line is not behind the last member (R127). -/
theorem Scan.any_commit_eq_false : (sc.m.any fun m => decide (2 * m ≤ sc.offset sc.judged)) = false := by
  simpa [Option.any_eq_false] using member

include read

/-- Up to the last member an even place in the group holds a descriptor (R126). -/
theorem State.judgeLine_of_descriptor (even : sc.offset sc.judged % 2 = 0) :
    s.judgeLine c sc a = s.judgeDescriptor c sc (sc.offset sc.judged / 2) a := by
  simp [State.judgeLine, read, Scan.any_commit_eq_false member, even]

/-- Up to the last member an odd place in the group holds a data line (R127). -/
theorem State.judgeLine_of_data (odd : sc.offset sc.judged % 2 = 1) :
    s.judgeLine c sc a = s.judgeData sc (sc.offset sc.judged / 2) a := by
  simp [State.judgeLine, read, Scan.any_commit_eq_false member, odd]

end Member

/-- The scan ends with nothing in flight: the engine goes on to FENCE 1 (R128). -/
theorem State.endScan_of_quiet (quiet : s.recovery.inFlight = []) (scan : s.recovery.scan = some sc) :
    s.endScan =
      { s with recovery := { s.recovery with
          phase := .fence1, scan := some { sc with ended := true } } } := by
  simp [State.endScan, State.withRecovery, Recovery.closeScan, quiet, scan]

/-- Settles O53: an unreadable line halts the part; a readable one is judged by its place in the group, and
either moves the scan on or, with nothing else in flight, ends it in FENCE 1. -/
theorem scanJudgesTheNextLine : Obligations.ScanJudgesTheNextLine := by
  unfold Obligations.ScanJudgesTheNextLine
  intro bytes s info c sc calm up good seq completion tag purpose ref attached mode config phase scan live
    flight
  have answered : s.Answered bytes info := ⟨calm, up, good, seq, completion, tag, attached⟩
  obtain ⟨sent, lower, retry, tags, whole, -⟩ := answered.exec (by simp [mode]) (by simp [mode])
  let v : State := { s with sent := sent, lower := lower, lowerRetry := retry, tags := tags }
  let w : State := { v with recovery := { v.recovery with inFlight := [] } }
  have handed : v.handOn info (parseAnswer bytes) = w.judgeLine c sc (checkForm (parseAnswer bytes) 64) :=
    (State.handOn_position (s := v) mode purpose ref).trans
      (State.positionAnswer_of_awaited (s := v) mode config phase scan live flight)
  rw [handed] at whole
  intro a readable d leaves ends commitNext
  have judged (read : readable) :
      exec (.transactionPacket .lower bytes) s = .next (State.endEvent (w.judgeLine c sc a)) := by
    rw [(checkForm_of_readable read).1] at whole
    exact whole
  have passed {next : Scan} (place : next.judged = sc.judged)
      (outcome : exec (.transactionPacket .lower bytes) s = .next (w.putScan next).endEvent) :
      leaves .scan next :=
    ⟨_, outcome, mode, phase, by rw [← place]; rfl, rfl⟩
  have ended {u : State} {sc' : Scan} (scan' : u.recovery.scan = some sc') (quiet : u.recovery.inFlight = [])
      (mode' : u.mode = .recovering) (start : sc'.g = sc.g) (serial : sc'.s = sc.s)
      (outcome : exec (.transactionPacket .lower bytes) s = .next u.endScan.endEvent) : ends := by
    rw [State.endScan_of_quiet quiet scan'] at outcome
    exact ⟨_, outcome, mode', rfl, quiet, _, rfl, rfl, start, serial⟩
  have deviates := ended (u := w) scan rfl mode rfl rfl
  refine ⟨fun unread => ?_, fun read commit => ?_, fun read member odd => ?_, fun read member even => ?_⟩
  · rw [State.judgeLine_of_error (s := w) mode (checkForm_isError_iff.2 unread)] at whole
    obtain ⟨t, next, halted, -, -, faults, -⟩ := After.of_enterHalted (v := w) mode whole
    exact ⟨t, next, halted, faults⟩
  · have outcome := judged read
    rw [State.judgeLine_of_commit (checkForm_of_readable read).2 commit, State.judgeCommit] at outcome
    split at outcome
    · next passes => exact (if_pos passes).mpr ⟨_, outcome, mode, rfl, rfl, rfl⟩
    · next fails => exact (if_neg fails).mpr (deviates outcome)
  · have outcome := judged read
    rw [State.judgeLine_of_data (checkForm_of_readable read).2 member odd, State.judgeData] at outcome
    split at outcome
    · next passes => exact (if_pos passes).mpr (passed rfl outcome)
    · next fails => exact (if_neg fails).mpr (deviates outcome)
  · have outcome := judged read
    have first : d / 2 = 0 ↔ d = 0 := by omega
    rw [State.judgeLine_of_descriptor (checkForm_of_readable read).2 member even, State.judgeDescriptor]
      at outcome
    split at outcome
    · next passes =>
      dsimp only at outcome
      split at outcome
      · next beyond =>
        have beyond' := beyond.imp first.1 of_decide_eq_true
        exact (if_neg fun both => both.2 beyond').mpr
          (ended (u := w.putScan (sc.takeDescriptor (d / 2) a.data)) rfl rfl mode rfl rfl outcome)
      · next within =>
        exact (if_pos ⟨passes, fun beyond => within (beyond.imp first.2 decide_eq_true)⟩).mpr
          (passed rfl outcome)
    · next fails => exact (if_neg fun both => fails both.1).mpr (deviates outcome)

/-! ### The end of a start (R124, R130, R131) -/

/-- A recovery fence completed OK in RECOVERING gives its count to the flush unit and moves the engine on
(R124, R130, R131, R184). -/
theorem State.handOn_recoveryFence (mode : s.mode = .recovering) (purpose : info.purpose = .recoveryFence)
    (ok : a.status = .ok) :
    s.handOn info a = State.fenceOk
      { s with
        marks := (s.countFence info .ok).marks, recovery := { s.recovery with fenceOut := false } } := by
  have counted : s.countFence info .ok = s.raiseDurable (info.passCount.getD s.marks.durable) := by
    simp [State.countFence, mode]
  have mode' : (s.raiseDurable (info.passCount.getD s.marks.durable)).mode = .recovering := mode
  simp only [State.handOn, purpose, ok, counted, State.recoveryFence, if_pos mode', if_true]
  rfl

/-- The last fence of a normal start ends it (R131). -/
theorem State.fenceOk_of_fence2 (phase : s.recovery.phase = .fence2) (config : s.config = some c)
    (scan : s.recovery.scan = some sc) :
    s.fenceOk = State.enterOperating ((s.takeAnchor (sc.newAnchor c.size)).appendFault .recoveryDone
      { count := some s.recovery.replayed, serial := some sc.s, addr := some (c.posAddr sc.g) }) := by
  simp only [State.fenceOk, phase, State.endNormal, config, scan]

/-- The fence of a FRESH start ends it (R124). -/
theorem State.fenceOk_of_freshFence (phase : s.recovery.phase = .freshFence) (config : s.config = some c) :
    s.fenceOk = State.enterOperating ((s.takeAnchor (s.freshAnchor c.size)).appendFault .recoveryDone
      { count := some 0, addr := some (c.posAddr 0#48) }) := by
  simp only [State.fenceOk, phase, State.endFresh, config]
  simp [JournalConfig.posAddr, JournalConfig.posLine]

/-- Settles O54: each last fence enters OPERATING with the values of the anchor that its start has written. -/
theorem recoveryEndsInOperating : Obligations.RecoveryEndsInOperating := by
  unfold Obligations.RecoveryEndsInOperating
  intro bytes s info c calm up good seq completion tag purpose attached ok mode config
  have answered : s.Answered bytes info := ⟨calm, up, good, seq, completion, tag, attached⟩
  obtain ⟨sent, lower, retry, tags, whole, -⟩ := answered.exec (by simp [mode]) (by simp [mode])
  let v : State := { s with sent := sent, lower := lower, lowerRetry := retry, tags := tags }
  let w : State :=
    { v with marks := (v.countFence info .ok).marks, recovery := { v.recovery with fenceOut := false } }
  have handed : v.handOn info (parseAnswer bytes) = w.fenceOk :=
    State.handOn_recoveryFence (s := v) mode purpose ok
  rw [handed] at whole
  intro done
  have entered {x : Anchor} {f : FaultFields} (place : f.addr = some (c.posAddr x.tail))
      (outcome : exec (.transactionPacket .lower bytes) s =
        .next (State.enterOperating ((w.takeAnchor x).appendFault .recoveryDone f)).endEvent) :
      done x.epoch x.generation x.tail x.nextSerial
        { s.record .recoveryDone .recovering with
          stream := f.stream, serial := f.serial, count := f.count, link := f.link } := by
    refine ⟨_, outcome, rfl, rfl, rfl, rfl, rfl, rfl, rfl, ?_⟩
    have record : (State.enterOperating ((w.takeAnchor x).appendFault .recoveryDone f)).faults =
        pushFault s.faults { s.record .recoveryDone s.mode with
          stream := f.stream, serial := f.serial, addr := f.addr, count := f.count, link := f.link } := rfl
    rw [record, mode, place]
    rfl
  refine ⟨fun sc phase scan => ?_, fun phase noAnchor => ?_, fun slot a phase best => ?_⟩
  · rw [State.fenceOk_of_fence2 (s := w) phase config scan] at whole
    exact entered rfl whole
  · rw [State.fenceOk_of_freshFence (s := w) phase config,
      State.freshAnchor_of_none (s := w) _ noAnchor] at whole
    exact entered rfl whole
  · rw [State.fenceOk_of_freshFence (s := w) phase config,
      State.freshAnchor_of_some (s := w) _ best] at whole
    exact entered rfl whole

end Sys2Proof.Machine
end
section
/-! PROOFS. The invariants of the lines, of the mode and of the ports: the part of a state they speak of, and
what keeps them at the fault list and at each entry into a mode (R137 to R150, R173, R204). -/

namespace Sys2Proof.Machine

variable {s t u : State}

/-! ### The part of a state the invariants speak of -/

/-- The mode, the lines and timers that follow it, the fault list, and both links. -/
structure Controls where
  mode : Mode
  safeLine : Bool
  alert : Bool
  faults : List FaultRecord
  budgetTimer : Option Nat
  holdTimer : Option Nat
  upper : Port
  lower : Port
  refresh : Bool

/-- The controls of a state. -/
def State.controls (s : State) : Controls :=
  { mode := s.mode, safeLine := s.safeLine, alert := s.alert, faults := s.faults
    budgetTimer := s.budgetTimer, holdTimer := s.holdTimer, upper := s.upper, lower := s.lower
    refresh := s.credits.refresh }

theorem State.port_of_controls (e : u.controls = t.controls) (l : Link) : u.port l = t.port l := by
  cases l with
  | upper => exact congrArg Controls.upper e
  | lower => exact congrArg Controls.lower e

@[simp] theorem State.emit_controls (p : Sent) : (s.emit p).controls = s.controls := rfl
@[simp] theorem State.returnCredits_controls (a : Amount) : (s.returnCredits a).controls = s.controls := by
  simp only [State.controls, State.returnCredits, UpperCredits.refresh_giveBack]
@[simp] theorem State.modifyGroup_controls (r : Nat) (f : Group → Group) :
    (s.modifyGroup r f).controls = s.controls := rfl
@[simp] theorem State.freeGroup_controls (r : Nat) : (s.freeGroup r).controls = s.controls := rfl
@[simp] theorem State.modifyStream_controls (i : Nat) (f : StreamState → StreamState) :
    (s.modifyStream i f).controls = s.controls := rfl
@[simp] theorem State.stage_controls (e : Entry) : (s.stage e).controls = s.controls := rfl
@[simp] theorem State.freeEntriesBy_controls (p : Entry → Bool) :
    (s.freeEntriesBy p).controls = s.controls := State.returnCredits_controls _
@[simp] theorem State.freeEntryOnce_controls (p : Entry → Bool) :
    (s.freeEntryOnce p).controls = s.controls := by
  rw [State.freeEntryOnce]
  split
  · rfl
  · exact State.returnCredits_controls _
@[simp] theorem State.countPassSend_controls : s.countPassSend.controls = s.controls := rfl
@[simp] theorem State.withCkpt_controls (f : Checkpoint → Checkpoint) :
    (s.withCkpt f).controls = s.controls := rfl
@[simp] theorem State.withRecovery_controls (f : Recovery → Recovery) :
    (s.withRecovery f).controls = s.controls := rfl
@[simp] theorem State.takeLimits_controls (l : Link) (limits : Limits) :
    (s.takeLimits l limits).controls = s.controls := by
  cases l <;> rfl

/-- Completions formed and dropped, and flushes examined, leave the controls. -/
theorem State.FlushesSettled.controls (h : s.FlushesSettled t) : t.controls = s.controls := by
  obtain ⟨n, -, back⟩ := h.freed
  rw [h.frame, back]
  exact State.returnCredits_controls _

@[simp] theorem State.formRead_controls (i : Nat) (status : Status) (data : List Byte) :
    (s.formRead i status data).controls = s.controls :=
  (State.FlushesSettled.formRead s i status data).controls

@[simp] theorem State.failReads_controls : s.failReads.controls = s.controls := by
  have failed := s.failReads_spec
  rw [failed.frame, failed.credits]
  exact State.returnCredits_controls _

@[simp] theorem State.reserve_controls : s.reserve.controls = s.controls := by
  rw [s.reserve_frame.1]
  rfl

/-! ### The invariants a state keeps -/

/-- Whatever invariant of the lines, of the mode and of the ports `s` has, `t` has too. -/
structure State.Keeps (s t : State) : Prop where
  lines : s.linesGood → t.linesGood
  modes : s.modeGood → t.modeGood
  ports : s.portsGood → t.portsGood

namespace State.Keeps

theorem refl (s : State) : s.Keeps s := ⟨id, id, id⟩

/-- The invariants depend on the controls alone. -/
theorem same (h : s.Keeps t) (e : u.controls = t.controls) : s.Keeps u := by
  simp only [State.controls, Controls.mk.injEq] at e
  obtain ⟨mode, safeLine, alert, faults, budget, hold, upper, lower, refresh⟩ := e
  refine ⟨fun good => ?_, fun good => ?_, fun good => ?_⟩
  · simpa only [State.linesGood, mode, safeLine, alert, faults] using h.lines good
  · simpa only [State.modeGood, mode, budget, hold, lower] using h.modes good
  · simpa only [State.portsGood, upper, lower, refresh] using h.ports good

/-- A fold of operations that keep the invariants keeps them. -/
theorem foldl {α : Type} {f : State → α → State} (keeps : ∀ v a, s.Keeps v → s.Keeps (f v a))
    (l : List α) (h : s.Keeps t) : s.Keeps (l.foldl f t) := by
  induction l generalizing t with
  | nil => exact h
  | cons a l ih => exact ih (keeps t a h)

/-! ### The fault list (R204) -/

/-- A record joins the list, the oldest removed from a full one; ALERT_N is asserted. -/
theorem appendFaultIn (h : s.Keeps t) (mode : Mode) (cause : Cause) (f : FaultFields) :
    s.Keeps (t.appendFaultIn mode cause f) := by
  refine ⟨fun good => ?_, h.modes, h.ports⟩
  obtain ⟨safeLine, -, few⟩ := h.lines good
  exact ⟨safeLine, by simp [pushFault_ne_nil], pushFault_length_le _ _ few⟩

theorem appendFault (h : s.Keeps t) (cause : Cause) (f : FaultFields) : s.Keeps (t.appendFault cause f) :=
  h.appendFaultIn ..

/-- The oldest record leaves the list, and ALERT_N with the last one (R205). -/
theorem doReadFault (h : s.Keeps t) (params : List Byte) : s.Keeps (doReadFault params t) := by
  unfold Machine.doReadFault
  split
  · exact h.same rfl
  · next r rest faults =>
    refine ⟨fun good => ?_, h.modes, h.ports⟩
    obtain ⟨safeLine, -, few⟩ := h.lines good
    rw [faults, List.length_cons] at few
    exact ⟨safeLine, rfl, Nat.le_of_succ_le few⟩

/-! ### The mode with its lines and timers (R137 to R150, R173) -/

/-- A mode without timers of its own follows another such mode. -/
theorem setMode (h : s.Keeps t) (m : Mode) (before : t.mode ≠ .halted ∧ t.mode ≠ .holdup)
    (after : m ≠ .halted ∧ m ≠ .holdup) : s.Keeps (t.setMode m) := by
  refine ⟨fun good => ⟨rfl, (h.lines good).2⟩, fun good => ?_, h.ports⟩
  obtain ⟨held, -, -, budget⟩ := h.modes good
  exact ⟨by simpa [before.1, after.1] using held, fun x => absurd x after.1, fun x => absurd x after.1,
    by simpa [before.2, after.2] using budget⟩

/-- SAFE is entered with the budget timer and the LLP's replay timer stopped. -/
theorem enterSafe (h : s.Keeps t) (live : t.mode ≠ .halted) : s.Keeps t.enterSafe := by
  refine ⟨fun good => ⟨rfl, (h.lines good).2⟩, fun good => ?_, h.ports⟩
  obtain ⟨held, -, -, -⟩ := h.modes good
  exact ⟨by simpa [State.enterSafe, live] using held, nofun, nofun, by simp [State.enterSafe]⟩

/-- The end of HOLDUP, its queue discarded first (R149; log 37). -/
theorem leaveHoldup (h : s.Keeps t) (mode : t.mode = .holdup) : s.Keeps t.leaveHoldup := by
  rw [State.leaveHoldup_eq (congrArg Mode.advertises mode)]
  exact (h.enterSafe (by rw [mode]; decide)).same rfl

/-- HALTED is entered with the lower link held DOWN and its hold timer stopped (R173). -/
theorem enterHalted (h : s.Keeps t) (live : t.mode ≠ .holdup) (cause : Cause) (f : FaultFields) :
    s.Keeps (t.enterHalted cause f) := by
  let halted : State := { (t.appendFault cause f).setMode .halted with
    lower := t.lower.atHalt, holdTimer := none, lowerCredits := .zero, claims := .none
    credits := t.credits.advertise }
  have entered : s.Keeps halted := by
    refine ⟨fun good => ⟨rfl, ((h.appendFault cause f).lines good).2⟩, fun good => ?_, fun good => ?_⟩
    · obtain ⟨-, -, -, budget⟩ := h.modes good
      exact ⟨by simp [halted, Port.atHalt, State.setMode], fun _ => rfl, fun _ => rfl,
        by simpa [halted, State.setMode, live] using budget⟩
    · obtain ⟨upper, ⟨-, -, -, unacked, replays⟩, held, refresh⟩ := h.ports good
      exact ⟨upper, ⟨by simp [halted, Port.atHalt], nofun, nofun, unacked, replays⟩, held, refresh⟩
  exact entered.same halted.failReads_controls

/-- OPERATING is entered at the end of a recovery (R138). -/
theorem enterOperating (h : s.Keeps t) (mode : t.mode = .recovering) : s.Keeps t.enterOperating :=
  (h.setMode .operating (by simp [mode]) (by simp)).same rfl

/-- An error report by the mode it arrives in (R141). -/
theorem reportError (h : s.Keeps t) (cause : Cause) (f : FaultFields) : s.Keeps (t.reportError cause f) := by
  rw [State.reportError]
  split
  · next mode => exact h.enterHalted (by simp [mode]) ..
  · next mode => exact h.enterHalted (by simp [mode]) ..
  · next mode => exact (h.appendFault ..).leaveHoldup mode
  all_goals exact h

theorem mediaError (h : s.Keeps t) (f : FaultFields) : s.Keeps (t.mediaError f) := h.reportError ..

/-- A group is discarded with its record (R37). -/
theorem discard (h : s.Keeps t) (mode : Mode) (cause : Cause) (r : Nat) :
    s.Keeps (t.discard mode cause r) := by
  rw [State.discard]
  split
  · exact h
  · exact same (appendFaultIn (h.same (by simp)) ..) (State.freeGroup_controls _)

theorem discardOpen (h : s.Keeps t) (mode : Mode) (cause : Cause) : s.Keeps (t.discardOpen mode cause) := by
  refine foldl (fun v i hv => ?_) _ h
  rw [State.discardStream]
  split
  · exact hv
  · exact hv.discard ..

/-- HOLDUP is entered with the budget timer running (R143). -/
theorem enterHoldup (h : s.Keeps t) (live : t.mode ≠ .halted) : s.Keeps t.enterHoldup := by
  have begun : s.Keeps t.holdupBegun := by
    refine ⟨fun good => ⟨rfl, (h.lines good).2⟩, fun good => ?_, h.ports⟩
    obtain ⟨held, -, -, -⟩ := h.modes good
    exact ⟨by simpa [State.holdupBegun, live] using held, nofun, nofun, by simp [State.holdupBegun]⟩
  have failed : s.Keeps t.holdupBegun.failReads := begun.same State.failReads_controls
  have purged : s.Keeps t.holdupBegun.failReads.queueDiscarded := failed.same rfl
  rw [State.enterHoldup_eq]
  exact purged.discardOpen ..

/-- PFW_N found asserted (R137). -/
theorem pfwTransition (h : s.Keeps t) : s.Keeps t.pfwTransition := by
  rw [State.pfwTransition]
  split
  · next mode => exact h.enterSafe (by simp [mode])
  · next mode => exact h.enterSafe (by simp [mode])
  · next mode => exact h.enterHoldup (by simp [mode])
  all_goals exact h

end State.Keeps

end Sys2Proof.Machine
end

section
/-! PROOFS. The invariants at the ports: what a port's record may do with its link where it is, and what
each change of its link leaves (R155 to R164, R167, R170, R172, R180). -/

namespace Sys2Proof.Machine

variable {s t u v : State} {l : Link}

/-! ### The ports (chapter 8) -/

/-- A port's record changes with its link where it was, and stays in order. -/
structure Port.Follows (p q : Port) : Prop where
  state : q.state = p.state
  held : q.heldDown = p.heldDown
  order : p.inOrder → q.inOrder

/-- A port in order stays so when it moves its counts within range and no flag of its training. -/
theorem Port.Follows.of_counts {p q : Port} (state : q.state = p.state) (held : q.heldDown = p.heldDown)
    (train : q.trainTimer = p.trainTimer) (sent : q.initSent = p.initSent) (recv : q.initRecv = p.initRecv)
    (nak : q.nakOut = true → p.nakOut = true ∨ p.state = .up)
    (unacked : q.unacked ≤ p.unacked ∨ q.unacked < Config.ackEvery)
    (replays : q.replayCount ≤ p.replayCount ∨ q.replayCount ≤ Config.replayLimit) : p.Follows q := by
  refine ⟨state, held, fun ⟨timer, inits, out, few, limit⟩ => ⟨?_, ?_, fun x => ?_, by omega, by omega⟩⟩
  · rw [train, state]
    exact timer
  · rw [train, sent, recv]
    exact inits
  · rw [state]
    exact (nak x).elim out id

/-- A port that trains afresh is in order (R155, R167). -/
theorem Port.restarted_inOrder (p : Port) : p.restarted.inOrder :=
  ⟨by simp [Port.restarted], fun _ => ⟨rfl, rfl⟩, nofun, by simp [Port.restarted, Config.ackEvery],
    Nat.zero_le _⟩

namespace State.Keeps

/-- The upper port changes, and the refresh timer runs exactly in UP after it (R180). -/
theorem upper (h : s.Keeps t) (q : Port) (refresh : Bool)
    (e : u.controls = { t.controls with upper := q, refresh := refresh })
    (held : q.heldDown = t.upper.heldDown)
    (order : t.portsGood → q.inOrder ∧ (refresh = true ↔ q.state = .up)) : s.Keeps u := by
  refine same (t := { t with upper := q, credits := { t.credits with refresh := refresh } })
    ⟨h.lines, h.modes, fun good => ?_⟩ e
  have before := h.ports good
  obtain ⟨inOrder, runs⟩ := order before
  obtain ⟨-, lower, notHeld, -⟩ := before
  exact ⟨inOrder, lower, held.trans notHeld, runs⟩

/-- The lower port changes, and with it perhaps the hold timer, but not while it is held DOWN (R172, R173). -/
theorem lower (h : s.Keeps t) (q : Port) (timer : Option Nat)
    (e : u.controls = { t.controls with lower := q, holdTimer := timer })
    (held : q.heldDown = t.lower.heldDown) (order : t.lower.inOrder → q.inOrder)
    (live : t.lower.state = .down → t.lower.heldDown = false) : s.Keeps u := by
  refine same (t := { t with lower := q, holdTimer := timer }) ⟨h.lines, fun good => ?_, fun good => ?_⟩ e
  · obtain ⟨isHeld, down, -, budget⟩ := h.modes good
    have notHalted : t.mode ≠ .halted := fun mode => by
      have free := live (down mode)
      rw [isHeld.2 mode] at free
      cases free
    exact ⟨held ▸ isHeld, fun mode => absurd mode notHalted, fun mode => absurd mode notHalted, budget⟩
  · obtain ⟨upper, inOrder, rest⟩ := h.ports good
    exact ⟨upper, order inOrder, rest⟩

/-- A port's record changes with its link where it was. -/
theorem setPort (h : s.Keeps t) {q : Port} (follows : (t.port l).Follows q) : s.Keeps (t.setPort l q) := by
  obtain ⟨state, held, order⟩ := follows
  cases l with
  | upper =>
    refine h.upper q t.credits.refresh rfl held fun ⟨inOrder, _, _, refresh⟩ => ⟨order inOrder, ?_⟩
    rw [state]
    exact refresh
  | lower =>
    refine ⟨h.lines, fun good => ?_, fun good => ?_⟩
    · obtain ⟨isHeld, down, rest⟩ := h.modes good
      exact ⟨held ▸ isHeld, fun mode => state.trans (down mode), rest⟩
    · obtain ⟨upper, inOrder, rest⟩ := h.ports good
      exact ⟨upper, order inOrder, rest⟩

theorem sendAck (h : s.Keeps t) (l : Link) : s.Keeps (t.sendAck l) := by
  refine same (setPort (l := l) h ?_) (State.emit_controls _)
  exact .of_counts rfl rfl rfl rfl rfl .inl (.inl (Nat.zero_le _)) (.inl le_rfl)

/-- A NAK is outstanding in UP alone (R160). -/
theorem sendNak (h : s.Keeps t) (up : (t.port l).state = .up) : s.Keeps (t.sendNak l) := by
  rw [State.sendNak]
  split
  · exact h
  · refine same (setPort (l := l) h ?_) (State.emit_controls _)
    exact .of_counts rfl rfl rfl rfl rfl (fun _ => .inr up) (.inl le_rfl) (.inl le_rfl)

/-- A CREDIT unit restarts the refresh timer, which runs in UP (R180). -/
theorem sendCredit (h : s.Keeps t) (up : t.upper.state = .up) : s.Keeps t.sendCredit :=
  h.upper t.upper true rfl rfl fun ⟨inOrder, _⟩ => ⟨inOrder, by simp [up]⟩

theorem replay (h : s.Keeps t) (l : Link) : s.Keeps (t.replay l) := by
  rw [State.replay]
  split
  · exact h
  · have replayed : s.Keeps { t with sent := t.sent ++ t.replayUnits l } := h.same rfl
    refine replayed.setPort ?_
    cases l <;> exact ⟨rfl, rfl, id⟩

/-- The re-send moves the next sequence on and starts the replay timer (R171, R182). -/
theorem resendOn (h : s.Keeps t) (l : Link) : s.Keeps (t.resendOn l) := by
  cases l with
  | upper => exact h
  | lower =>
    show s.Keeps t.resend
    rw [State.resend]
    split
    · obtain ⟨k, buffer, -, -, -, -, -, resent⟩ := t.resendGo_spec [] t.lowerRetry
      rw [resent]
      have moved := setPort (l := .lower) h (q := { t.lower with
        nextTx := t.lower.nextTx + BitVec.ofNat 12 k
        replayTimer := t.lower.replayTimer || decide (0 < k) }) ⟨rfl, rfl, id⟩
      exact moved.same rfl
    · exact h

/-- A link starts training out of DOWN, where it is not held, or out of TRAINING (R155). -/
theorem startTraining (h : s.Keeps t) (l : Link) (notUp : (t.port l).state ≠ .up)
    (free : (t.port l).state = .down → (t.port l).heldDown = false) : s.Keeps (t.startTraining l) := by
  have order : (t.port l).inOrder → (t.port l).atTraining.inOrder := fun ⟨_, _, nak, unacked, replays⟩ =>
    ⟨by simp [Port.atTraining], fun _ => ⟨rfl, rfl⟩, fun out => absurd (nak out) notUp, unacked, replays⟩
  cases l with
  | upper =>
    refine h.upper t.upper.atTraining t.credits.refresh ?_ rfl fun ⟨inOrder, _, _, refresh⟩ =>
      ⟨order inOrder, refresh.trans ⟨fun up => absurd up notUp, nofun⟩⟩
    have session := (t.credits.newSession_spec t.mode.advertises).2.1
    exact congrArg (fun x => { t.controls with upper := t.upper.atTraining, refresh := x }) session
  | lower => exact h.lower t.lower.atTraining t.holdTimer rfl rfl order free

/-- The upper session ends (R167). -/
theorem upperDown (h : s.Keeps t) : s.Keeps t.upperDown := by
  obtain ⟨v, orphaned, down⟩ := t.upperDown_eq
  obtain ⟨reads, streams, credits, frame⟩ := orphaned.frame
  obtain ⟨a, back⟩ := orphaned.credits
  have refresh : (v.credits.newSession t.mode.advertises).refresh = false := by
    rw [(v.credits.newSession_spec _).2.1, back, UpperCredits.refresh_giveBack]
    rfl
  refine (h.appendFault .upperLinkDown { link := some .upper, count := some t.upperRetry.length }).upper
    t.upper.restarted false ?_ rfl fun _ => ⟨t.upper.restarted_inOrder, nofun, nofun⟩
  rw [down]
  simp only [State.controls, refresh]
  rw [frame]
  rfl

/-- A link enters DOWN out of a session and trains afresh (R167, R170). -/
theorem linkDown (h : s.Keeps t) (session : (t.port l).state ≠ .down) : s.Keeps (t.linkDown l) := by
  cases l with
  | upper => exact h.upperDown
  | lower =>
    let kept := t.lowerRetry.filter fun p => t.staysAtDown p.body
    exact (h.appendFault .lowerLinkDown { link := some .lower, count := some kept.length }).lower
      t.lower.restarted (t.holdTimer <|> some t.params.holdTime) rfl rfl
      (fun _ => t.lower.restarted_inOrder) fun down => absurd down session

end State.Keeps

/-- `v` is `t` on the point of port `l`'s entry into UP: but for that port's flags, and the timer that the
entry starts or stops, nothing of the controls is changed. -/
structure State.Enters (l : Link) (t v : State) : Prop where
  others : ∀ q, ((v.setPort l q).upTimers l).controls = ((t.setPort l q).upTimers l).controls
  held : (v.port l).heldDown = (t.port l).heldDown
  unacked : (v.port l).unacked = (t.port l).unacked
  replays : (v.port l).replayCount ≤ (t.port l).replayCount
  live : (t.port l).state ≠ .down

/-- A port in RETRAIN, its INIT sent and the entry recorded (R164). -/
def State.inRetrain (s : State) (l : Link) (byPartner : Bool) : State :=
  let v := s.setPort l ((s.port l).atRetrain byPartner)
  let v := match l with
    | .upper => { v with credits := { v.credits with refresh := false } }
    | .lower => v
  (v.sendInit l .retrain byPartner).appendFault .retrain { link := some l, count := some (s.unackedCount l) }

theorem State.port_inRetrain (s : State) (l : Link) (byPartner : Bool) :
    (s.inRetrain l byPartner).port l = (s.port l).atRetrain byPartner := by
  cases l <;> rfl

/-- At the port's own replay limit RETRAIN lasts. -/
theorem State.enterRetrain_own (s : State) (l : Link) : s.enterRetrain l false = s.inRetrain l false := by
  have port := s.port_inRetrain l false
  show (s.inRetrain l false).tryUp l = _
  rw [State.tryUp, port]
  rfl

/-- On the partner's INIT the link is UP again in the same event (log 12). -/
theorem State.enterRetrain_byPartner (s : State) (l : Link) :
    s.enterRetrain l true = (s.inRetrain l true).upFromRetrain l := by
  have port := s.port_inRetrain l true
  show (s.inRetrain l true).tryUp l = _
  rw [State.tryUp, port]
  rfl

/-- A matching INIT has been taken at a port: its limits, its flag, and the reply to it (R156). -/
def State.initTaken (s : State) (l : Link) (kind : TrainKind) (reply : Bool) (limits : Limits) : State :=
  let v := (s.takeLimits l limits).setPort l { s.port l with initRecv := true }
  if reply then v else v.sendInit l kind true

theorem State.initTaken_controls (s : State) (l : Link) (kind : TrainKind) (reply : Bool) (limits : Limits) :
    (s.initTaken l kind reply limits).controls =
      (s.setPort l { s.port l with initRecv := true }).controls := by
  cases reply <;> cases l <;> rfl

namespace State.Keeps

/-- A link enters UP: its training timer stops, the refresh timer runs or the hold timer stops (R156, R172,
R180). -/
theorem entersUp (h : s.Keeps t) {q : Port} (up : q.state = .up) (stopped : q.trainTimer = false)
    (held : q.heldDown = (t.port l).heldDown)
    (counts : (t.port l).inOrder → q.unacked < Config.ackEvery ∧ q.replayCount ≤ Config.replayLimit)
    (live : (t.port l).state ≠ .down) (e : u.controls = ((t.setPort l q).upTimers l).controls) :
    s.Keeps u := by
  have order : (t.port l).inOrder → q.inOrder := fun good =>
    ⟨by simp [up, stopped], fun x => absurd (stopped.symm.trans x) nofun, fun _ => up, counts good⟩
  cases l with
  | upper => exact h.upper q true e held fun ⟨inOrder, _⟩ => ⟨order inOrder, by simp [up]⟩
  | lower => exact h.lower q none e held order fun down => absurd down live

/-- UP out of TRAINING: a new session begins (R156). -/
theorem upFromTraining (h : s.Keeps t) (entry : State.Enters l t v) : s.Keeps (v.upFromTraining l) := by
  refine resendOn (h.entersUp (q := { (v.port l).newSession with state := .up, trainTimer := false }) rfl rfl
    entry.held (fun ⟨_, _, _, _, limit⟩ => ⟨Nat.succ_pos _, entry.replays.trans limit⟩) entry.live ?_) l
  rw [← entry.others]
  cases l <;> rfl

/-- UP out of RETRAIN: what is unacknowledged is replayed (R164). -/
theorem upFromRetrain (h : s.Keeps t) (entry : State.Enters l t v) : s.Keeps (v.upFromRetrain l) := by
  have up : s.Keeps ((v.setPort l { v.port l with state := .up, trainTimer := false }).upTimers l) :=
    h.entersUp (q := { v.port l with state := .up, trainTimer := false }) rfl rfl entry.held
      (fun ⟨_, _, _, few, limit⟩ => ⟨entry.unacked ▸ few, entry.replays.trans limit⟩) entry.live
      (entry.others _)
  refine resendOn ?_ l
  split
  · exact up.replay l
  · exact up

/-- RETRAIN, at the replay limit or on the partner's INIT (R164). -/
theorem enterRetrain (h : s.Keeps t) (up : (t.port l).state = .up) (byPartner : Bool) :
    s.Keeps (t.enterRetrain l byPartner) := by
  have recorded := h.appendFault .retrain { link := some l, count := some (t.unackedCount l) }
  cases byPartner with
  | true =>
    rw [State.enterRetrain_byPartner]
    refine recorded.upFromRetrain ?_
    cases l <;> exact ⟨fun _ => rfl, rfl, rfl, Nat.zero_le _, fun down => nomatch up.symm.trans down⟩
  | false =>
    have order : (t.port l).inOrder → ((t.port l).atRetrain false).inOrder := fun ⟨_, _, _, few, _⟩ =>
      ⟨by simp [Port.atRetrain], fun _ => ⟨rfl, rfl⟩, nofun, few, Nat.zero_le _⟩
    rw [State.enterRetrain_own]
    cases l with
    | upper =>
      exact recorded.upper (t.upper.atRetrain false) false rfl rfl fun ⟨inOrder, _⟩ =>
        ⟨order inOrder, nofun, nofun⟩
    | lower =>
      exact recorded.lower (t.lower.atRetrain false) t.holdTimer rfl rfl order fun down =>
        nomatch up.symm.trans down

/-- A matching INIT: with INIT sent, as in every port in order that trains, the link enters UP (R156). -/
theorem matchingInit (h : s.Keeps t) (training : (t.port l).state = .training ∨ (t.port l).state = .retrain)
    (kind : TrainKind) (reply : Bool) (limits : Limits) : s.Keeps (t.matchingInit l kind reply limits) := by
  have taken := t.initTaken_controls l kind reply limits
  have port : (t.initTaken l kind reply limits).port l = { t.port l with initRecv := true } := by
    rw [State.port_of_controls taken]
    cases l <;> rfl
  have entry : State.Enters l t (t.initTaken l kind reply limits) := by
    refine ⟨fun q => ?_, by rw [port], by rw [port], by rw [port], fun down => ?_⟩
    · cases reply <;> cases l <;> rfl
    · rcases training with x | x <;> cases x.symm.trans down
  show s.Keeps ((t.initTaken l kind reply limits).tryUp l)
  rw [State.tryUp]
  split
  · split
    · exact h.upFromTraining entry
    · exact h.upFromRetrain entry
    · next notTraining notRetrain =>
      rw [port] at notTraining notRetrain
      exact (training.elim notTraining notRetrain).elim
  · next unsent =>
    refine same (setPort (l := l) h ?_) taken
    refine ⟨rfl, rfl, fun ⟨timer, inits, _⟩ => ?_⟩
    rw [port] at unsent
    exact absurd ⟨(inits (timer.2 training)).1, rfl⟩ unsent

/-- An INIT against the link state (R156, R157). -/
theorem handleInit (h : s.Keeps t) (l : Link) (kind : TrainKind) (reply : Bool) (limits : Limits) :
    s.Keeps (t.handleInit l kind reply limits) := by
  have limited : s.Keeps (t.takeLimits l limits) := h.same (State.takeLimits_controls ..)
  have port := State.port_of_controls (t.takeLimits_controls l limits) l
  unfold State.handleInit
  split
  · exact h
  · next state => exact h.matchingInit (.inl state) ..
  · exact h
  · next state => exact h.matchingInit (.inr state) ..
  · next state => exact h.linkDown (by rw [state]; decide)
  · exact limited
  · next state => exact h.linkDown (by rw [state]; decide)
  · exact limited.resendOn l
  · next state => exact limited.enterRetrain (port ▸ state) true
  · exact limited.resendOn l

theorem handleCredit (h : s.Keeps t) (l : Link) (limits : Limits) : s.Keeps (t.handleCredit l limits) := by
  have limited : s.Keeps (t.takeLimits l limits) := h.same (State.takeLimits_controls ..)
  unfold State.handleCredit
  split
  · exact limited.resendOn l
  · exact limited
  · exact h

/-- An acknowledgement is forward progress: the replay count returns to 0 (R162). -/
theorem acknowledge (h : s.Keeps t) (l : Link) (k : Nat) : s.Keeps (t.acknowledge l k) := by
  rw [State.acknowledge]
  split
  · exact h
  · have freed : s.Keeps (t.ackPackets l k) := h.same (by cases l <;> rfl)
    refine freed.setPort ?_
    exact .of_counts rfl rfl rfl rfl rfl .inl (.inl le_rfl) (.inl (Nat.zero_le _))

theorem handleAck (h : s.Keeps t) (l : Link) (n : Seq) : s.Keeps (t.handleAck l n) := by
  rw [State.handleAck]
  split
  · split
    · exact h
    · exact h.acknowledge ..
  · exact h

/-- A replay counts up to the limit, where RETRAIN takes its place (R163). -/
theorem countedReplay (h : s.Keeps t) (up : (t.port l).state = .up) : s.Keeps (t.countedReplay l) := by
  rw [State.countedReplay]
  split
  · next below =>
    refine (h.setPort ?_).replay l
    exact .of_counts rfl rfl rfl rfl rfl .inl (.inl le_rfl) (.inr below)
  · exact h.enterRetrain up false

theorem handleNak (h : s.Keeps t) (l : Link) (n : Seq) : s.Keeps (t.handleNak l n) := by
  rw [State.handleNak]
  split
  · split
    · exact h
    · dsimp only
      split
      · next replays => exact (h.acknowledge ..).countedReplay replays.1
      · exact h.acknowledge ..
  · exact h

theorem damaged (h : s.Keeps t) (l : Link) : s.Keeps (t.damaged l) := by
  rw [State.damaged]
  split
  · next up => exact h.sendNak up
  · exact h

theorem ackExpiry (h : s.Keeps t) (l : Link) : s.Keeps (t.ackExpiry l) := by
  rw [State.ackExpiry]
  split
  · exact h.sendAck l
  · exact h

theorem replayExpiry (h : s.Keeps t) (l : Link) : s.Keeps (t.replayExpiry l) := by
  have stopped : s.Keeps (t.setPort l { t.port l with replayTimer := false }) := h.setPort ⟨rfl, rfl, id⟩
  rw [State.replayExpiry]
  split
  · dsimp only
    split
    · next replays => exact stopped.countedReplay replays.1
    · exact stopped
  · exact h

theorem trainingExpiry (h : s.Keeps t) (l : Link) : s.Keeps (t.trainingExpiry l) := by
  rw [State.trainingExpiry]
  split
  · split
    · next state => exact h.startTraining l (by rw [state]; decide) fun down => nomatch state.symm.trans down
    · next state => exact h.linkDown (by rw [state]; decide)
    · exact h
  · exact h

/-- A port that is DOWN, and not held there, trains (R155). -/
theorem trainPorts (h : s.Keeps t) : s.Keeps t.trainPorts := by
  have trains : ∀ (v : State) (l : Link), s.Keeps v → s.Keeps (v.trainIfDown l) := by
    intro v l hv
    rw [State.trainIfDown]
    split
    · next down => exact hv.startTraining l (by rw [down.1]; decide) fun _ => down.2
    · exact hv
  exact trains _ _ (trains _ _ h)

end State.Keeps

end Sys2Proof.Machine
end

section
/-! PROOFS. The invariants through every event: the work that touches nothing of the controls, the work
that does, and the step (R151, R152, R155, R180, R204; log 20). -/

namespace Sys2Proof.Machine

variable {s t : State}

/-! ### What the groups, the reads and the journal leave as it was (chapters 2, 4 and 5) -/

@[simp] theorem State.memberWrite_controls (n : Num32) (r : Request) (inJournal : Bool) (i : Nat)
    (g : Group) : (s.memberWrite n r inJournal i g).controls = s.controls := by
  rw [State.memberWrite]
  split <;> simp

@[simp] theorem State.groupData_controls (n : Num32) (r : Request) (inJournal : Bool) :
    (s.groupData n r inJournal).controls = s.controls := by
  have opened : ∀ i, (s.openGroup r.stream i).controls = s.controls := fun _ => rfl
  rw [State.groupData]
  split
  · split <;> simp
  · split <;> simp [opened]

@[simp] theorem State.closeGroup_controls (n : Num32) (i : Nat) (g : Group) :
    (s.closeGroup n i g).controls = s.controls := by
  rw [State.closeGroup]
  split <;> rfl

@[simp] theorem State.handRead_controls (n : Num32) (r : Request) (orphan : Bool) :
    (s.handRead n r orphan).controls = s.controls := by
  rw [State.handRead]
  split
  · rfl
  · dsimp only
    split
    · exact State.formRead_controls ..
    · rfl

@[simp] theorem State.purgeItem_controls (orphan : Bool) (item : QueueItem) :
    (s.purgeItem orphan item).controls = s.controls := by
  have failed : ∀ r, (s.failDirect r orphan).controls = s.controls := by
    intro r
    rw [State.failDirect]
    split
    · exact (rfl : _ = (s.returnCredits r.charge).controls).trans (State.returnCredits_controls _)
    · exact State.returnCredits_controls _
  unfold State.purgeItem
  split
  · split <;> simp [failed]
  · rfl
  · rfl

@[simp] theorem State.groupFenceOk_controls (n : Num32) : (s.groupFenceOk n).controls = s.controls := by
  have follows : ∀ (l : List Nat) (v : State), (l.foldl State.followCommit v).controls = v.controls := by
    intro l v
    rw [(State.Commits.foldl l v).frame]
    rfl
  rw [State.groupFenceOk]
  split
  · rfl
  · split
    · split
      · exact follows ..
      · rfl
    · rfl

@[simp] theorem State.retire_controls (f : CkptFlight) : (s.retire f).controls = s.controls := by
  have freed : ∀ (l : List Nat) (v : State), (l.foldl State.freeGroup v).controls = v.controls := by
    intro l v
    rw [(State.foldl_freeGroup l v).1]
    rfl
  rw [State.retire]
  split <;> simp [freed]

@[simp] theorem State.takeApply_controls : s.takeApply.controls = s.controls := by
  rw [State.takeApply]
  split
  · split <;> rfl
  · rfl

@[simp] theorem State.startCheckpoint_controls : s.startCheckpoint.controls = s.controls := by
  rw [State.startCheckpoint]
  split <;> rfl

@[simp] theorem State.countFence_controls (info : TagInfo) (status : ModStatus) :
    (s.countFence info status).controls = s.controls := by
  rw [State.countFence]
  split <;> rfl

/-- A grant moves its owner's work on, and nothing of the controls (R186). -/
@[simp] theorem State.granted_controls (o : Offer) (src : Source) :
    (s.granted o src).controls = s.controls := by
  have reads : ∀ tag, (s.recoveryReadGranted tag).controls = s.controls := by
    intro tag
    unfold State.recoveryReadGranted
    split <;> rfl
  have redo : ∀ sc, (s.redoGranted sc).controls = s.controls := by
    intro sc
    rw [State.redoGranted]
    split
    · rfl
    · rw [State.examineGroup]
      split
      · split <;> rfl
      · rfl
  cases src with
  | passDrain =>
    show (s.passGranted o.body).controls = s.controls
    unfold State.passGranted
    split <;> simp
  | journal =>
    show s.journalGranted.controls = s.controls
    rw [State.journalGranted]
    split
    · rfl
    · split <;> rfl
  | apply =>
    show s.applyGranted.controls = s.controls
    rw [State.applyGranted]
    split
    · rfl
    · split
      · rfl
      · dsimp only
        split <;> rfl
  | checkpoint => rfl
  | readIssue =>
    show (s.readGranted o.tag).controls = s.controls
    unfold State.readGranted
    split <;> rfl
  | flushFence => rfl
  | recovery =>
    show (s.recoveryGranted o.tag).controls = s.controls
    unfold State.recoveryGranted
    cases s.recovery.phase with
    | redo =>
      dsimp only
      split
      · rfl
      · exact redo _
    | anchors => exact reads _
    | scan => exact reads _
    | _ => rfl

/-! ### The commands of the management port that change its own fields alone (chapter 10) -/

/-- Nothing of the queue of commands and of the controls is changed. -/
structure State.KeepsControls (s t : State) : Prop where
  pending : t.pending = s.pending
  controls : t.controls = s.controls

theorem State.writePending_keeps (s : State) (body : List Byte) : s.KeepsControls (s.writePending body) := by
  unfold State.writePending
  split <;> exact ⟨rfl, rfl⟩

theorem doSetJournal_keeps (s : State) (params : List Byte) : s.KeepsControls (doSetJournal params s) := by
  unfold doSetJournal
  dsimp only
  repeat' split
  all_goals exact ⟨rfl, rfl⟩

theorem doSetParameters_keeps (s : State) (params : List Byte) :
    s.KeepsControls (doSetParameters params s) := by
  unfold doSetParameters
  repeat' split
  all_goals exact ⟨rfl, rfl⟩

theorem doReadPending_keeps (s : State) (params : List Byte) : s.KeepsControls (doReadPending params s) := by
  unfold doReadPending
  split <;> exact ⟨rfl, rfl⟩

theorem doReadEntry_keeps (s : State) (params : List Byte) : s.KeepsControls (doReadEntry params s) := by
  unfold doReadEntry
  split <;> exact ⟨rfl, rfl⟩

theorem doCommitEntry_keeps (s : State) (params : List Byte) : s.KeepsControls (doCommitEntry params s) := by
  have matched : ∀ e, s.KeepsControls (s.commitMatched e) := by
    intro e
    unfold State.commitMatched
    repeat' split
    all_goals exact ⟨rfl, rfl⟩
  unfold doCommitEntry
  split
  · exact ⟨rfl, rfl⟩
  · split
    · exact ⟨rfl, rfl⟩
    · split
      · exact matched _
      · exact ⟨rfl, rfl⟩

namespace State.Keeps

/-! ### The classifier and the group unit (chapters 1 and 2) -/

theorem close (h : s.Keeps t) (n : Num32) (r : Request) : s.Keeps (t.close n r) := by
  rw [State.close]
  split
  · rw [State.emptyClose]
    split
    · exact h
    · exact appendFault (h.same (State.modifyStream_controls ..)) ..
  · split
    · rw [State.judgeClose]
      split
      · exact h.discard ..
      · split
        · exact h.same (State.closeGroup_controls ..)
        · exact h.discard ..
    · exact h

theorem routeWrite (h : s.Keeps t) (n : Num32) (r : Request) : s.Keeps (t.routeWrite n r) := by
  rw [State.routeWrite]
  split
  · have returned : s.Keeps (t.returnCredits r.charge) := h.same (State.returnCredits_controls _)
    rw [State.zeroWrite]
    split
    · exact returned.close ..
    · exact returned
  · split
    · have written : s.Keeps (t.groupData n r (t.verdict r.addr).isJournal) :=
        h.same (State.groupData_controls ..)
      rw [State.groupWrite]
      split
      · exact written.close ..
      · exact written
    · rw [State.plainWrite]
      split
      · exact h.same (State.stage_controls _)
      · exact (h.appendFault ..).same (State.returnCredits_controls _)

theorem takeRequest (h : s.Keeps t) : s.Keeps t.takeRequest := by
  have taken : ∀ rest, s.Keeps (t.takeHead rest) := fun _ => h.same rfl
  have malformed : ∀ rest r, s.Keeps ((t.takeHead rest).dropMalformed r) := fun rest r =>
    ((taken rest).appendFault ..).same (State.returnCredits_controls _)
  rw [State.takeRequest]
  split
  · next r rest _ =>
    split
    · split
      · split
        · exact h
        · rw [State.classify]
          split
          · exact (taken rest).same (State.handRead_controls ..)
          · split
            · exact malformed rest r
            · exact (taken rest).routeWrite ..
          · exact malformed rest r
      · rw [State.haltedTake]
        split
        · exact (taken rest).same (State.handRead_controls ..)
        · exact (taken rest).same (State.returnCredits_controls _)
        · exact (taken rest).same (State.returnCredits_controls _)
      · exact h
    · exact h
  · exact h

theorem takeMarker (h : s.Keeps t) : s.Keeps t.takeMarker := by
  have removed : ∀ rest, s.Keeps { t with queue := rest } := fun _ => h.same rfl
  rw [State.takeMarker]
  split
  · split
    · exact (removed _).discardOpen ..
    · exact removed _
    · exact removed _
    · exact h
  · exact h

theorem intakeInHoldup (h : s.Keeps t) : s.Keeps t.intakeInHoldup := by
  rw [State.intakeInHoldup]
  split
  · next rest _ =>
    split
    · have taken : s.Keeps { t with queue := rest } := h.same rfl
      exact taken.same (State.purgeItem_controls ..)
    · exact h
  · exact h

/-! ### Recovery (chapter 6) -/

theorem anchorAnswer (h : s.Keeps t) (mode : t.mode = .recovering) (slot : Nat) (a : Answer) :
    s.Keeps (t.anchorAnswer slot a) := by
  have recorded : s.Keeps (t.withRecovery fun r => r.recordAnchor slot a) := h.same rfl
  rw [State.anchorAnswer]
  split
  · exact recorded.mediaError _
  · rw [State.judgeAnchors]
    split
    · split
      · exact recorded.same rfl
      · rw [State.selectAnchor]
        split
        · exact recorded.enterHalted (by simp [mode]) ..
        · exact recorded.same rfl
    · exact recorded

theorem judgeLine (h : s.Keeps t) (c : JournalConfig) (sc : Scan) (a : Answer) :
    s.Keeps (t.judgeLine c sc a) := by
  rw [State.judgeLine]
  split
  · exact h.mediaError _
  · refine h.same ?_
    split
    · rw [State.judgeCommit]
      split <;> rfl
    · split
      · rw [State.judgeDescriptor]
        split
        · dsimp only
          split <;> rfl
        · rfl
      · rw [State.judgeData]
        split <;> rfl

theorem judgeLines (k : Nat) (h : s.Keeps t) : s.Keeps (State.judgeLines k t) := by
  induction k generalizing t with
  | zero => exact h
  | succ k ih =>
    rw [State.judgeLines]
    split
    · split
      · exact h
      · exact ih (judgeLine (h.same (State.withRecovery_controls _)) ..)
    · exact h

theorem recoveryRead (h : s.Keeps t) (ref : TagRef) (a : Answer) : s.Keeps (t.recoveryRead ref a) := by
  unfold State.recoveryRead
  split
  · next mode =>
    split
    · exact h.anchorAnswer mode ..
    · rw [State.positionAnswer]
      split
      · exact h.same rfl
      · exact judgeLines _ (h.same (State.withRecovery_controls _))
    · exact h
  · exact h

/-- The last fence of a recovery takes the part to OPERATING (R124, R131). -/
theorem fenceOk (h : s.Keeps t) (mode : t.mode = .recovering) : s.Keeps t.fenceOk := by
  have ended : ∀ (x : Anchor) (f : FaultFields),
      s.Keeps (((t.takeAnchor x).appendFault .recoveryDone f).enterOperating) := by
    intro x f
    have taken : s.Keeps (t.takeAnchor x) := h.same rfl
    exact (taken.appendFault ..).enterOperating mode
  rw [State.fenceOk]
  split
  · rw [State.endFresh]
    split
    · exact h
    · exact ended ..
  · exact h.same rfl
  · rw [State.endNormal]
    split
    · exact ended ..
    · exact h
  · exact h

theorem recoveryFence (h : s.Keeps t) (status : ModStatus) : s.Keeps (t.recoveryFence status) := by
  have back : s.Keeps (t.withRecovery fun r => { r with fenceOut := false }) := h.same rfl
  rw [State.recoveryFence]
  split
  · next mode =>
    dsimp only
    split
    · exact back.fenceOk mode
    · exact back.mediaError _
  · exact h

/-! ### Packets received (chapter 8) -/

/-- An answer that reaches its owner (R184). -/
theorem handOn (h : s.Keeps t) (info : TagInfo) (a : Answer) : s.Keeps (t.handOn info a) := by
  have counted : s.Keeps (t.countFence info a.status) := h.same (State.countFence_controls ..)
  have plain : s.Keeps ((t.countFence info a.status).handPlainFence a.status) := by
    rw [State.handPlainFence]
    split
    · exact counted
    · exact counted.mediaError _
  unfold State.handOn
  split
  · unfold State.handRecordRead
    split
    · exact h.same (State.formRead_controls ..)
    · exact h.recoveryRead ..
  · unfold State.handGroupFence
    split
    · rw [State.groupFence]
      split
      · exact counted.same (State.groupFenceOk_controls _)
      · exact counted.mediaError _
    · exact counted
  · rw [State.fenceADone]
    split
    · exact counted.same rfl
    · exact counted.mediaError _
  · rw [State.fenceBDone]
    split
    · split
      · exact counted
      · exact counted.same (State.retire_controls _)
    · exact counted.mediaError _
  · exact plain
  · exact plain
  · exact counted.recoveryFence _

/-- An accepted packet is counted, to the eighth, which is acknowledged at once (R159). -/
theorem acceptPacket (h : s.Keeps t) (l : Link) (seq : Seq) :
    s.Keeps (t.acceptPacket l seq) := by
  let q : Port := { t.port l with
    expRx := (t.port l).expRx + 1#12, lastAcc := seq, unacked := (t.port l).unacked + 1, nakOut := false
    ackTimer := (t.port l).ackTimer || (t.port l).unacked == 0 }
  have port : (t.setPort l q).port l = q := by cases l <;> rfl
  show s.Keeps (if Config.ackEvery ≤ ((t.setPort l q).port l).unacked then (t.setPort l q).sendAck l
    else t.setPort l q)
  rw [port]
  split
  · refine same (setPort (l := l) h (q := { q with unacked := 0, ackTimer := false }) ?_) ?_
    · exact .of_counts rfl rfl rfl rfl rfl nofun (.inl (Nat.zero_le _)) (.inl le_rfl)
    · cases l <;> rfl
  · next few =>
    exact h.setPort (.of_counts rfl rfl rfl rfl rfl nofun (.inr (Nat.lt_of_not_le few)) (.inl le_rfl))

theorem consume (h : s.Keeps t) (l : Link) (bytes : List Byte) : s.Keeps (t.consume l bytes) := by
  cases l with
  | upper =>
    rw [State.consume]
    split
    · exact h
    · rw [State.receiveRequest]
      split
      · exact h.same rfl
      · exact (h.appendFault ..).upperDown
  | lower =>
    rw [State.consume]
    split
    · unfold State.receiveCompletion
      split
      · next info _ =>
        have spent : s.Keeps ((t.setTag (completionTag bytes) (.spent info)).pruneLower) := h.same rfl
        dsimp only
        split
        · exact spent
        · exact spent.handOn ..
      · exact h
    · exact h

theorem judgePacket (h : s.Keeps t) (l : Link) (bytes : List Byte) : s.Keeps (t.judgePacket l bytes) := by
  rw [State.judgePacket]
  split
  · next up =>
    split
    · dsimp only
      split
      · exact (h.acceptPacket l _).consume l bytes
      · split
        · exact h.sendNak up
        · exact h.sendAck l
    · exact h.sendNak up
  · exact h

/-! ### What the part sends of its own (chapters 5 and 9) -/

theorem takeCompletion (h : s.Keeps t) : s.Keeps t.takeCompletion := by
  unfold State.takeCompletion
  split
  · exact h
  · next f rest _ =>
    split
    · split
      · exact h
      · next c _ =>
        have sent : s.Keeps (State.sendCompletion { t with formed := rest } c) :=
          same (setPort (l := .upper) h (q := { t.upper with
            nextTx := t.upper.nextTx + 1#12, replayTimer := true }) ⟨rfl, rfl, id⟩) rfl
        cases f with
        | direct c => exact sent
        | record i => exact sent.same (State.returnCredits_controls _)
    · exact h

/-- A grant sends its packet (R186). -/
theorem grant (h : s.Keeps t) (src : Source) (o : Offer) : s.Keeps (t.grant src o) := by
  let w : State := { t with robin := (src.position + 1) % 7, claims := t.claims.keep fun h => h != src }
  have marked : ((w.takeTag o.tag).markFence o.body).controls = t.controls := by
    cases o.tag <;> cases o.body <;> rfl
  have sent : s.Keeps (((w.takeTag o.tag).markFence o.body).sendLower o.body) := by
    let v := (w.takeTag o.tag).markFence o.body
    have ready : s.Keeps v := h.same marked
    exact same (setPort (l := .lower) ready (q := { v.lower with
      nextTx := v.lower.nextTx + 1#12, replayTimer := true }) ⟨rfl, rfl, id⟩) rfl
  exact sent.same (State.granted_controls ..)

theorem arbitrate (h : s.Keeps t) : s.Keeps t.arbitrate := by
  rw [State.arbitrate]
  split
  · have claimed : ∀ c, s.Keeps { t with claims := c } := fun _ => h.same rfl
    dsimp only
    split
    · exact claimed _
    · exact (claimed _).grant ..
  · exact h

end State.Keeps

namespace State.Keeps

/-! ### The management port (chapter 10) -/

/-- A command of a bad form changes the held response alone (R193, R194). -/
theorem command (h : s.Keeps t) (expected : Nat) (body : List Byte) {f : List Byte → State → State}
    (keeps : ∀ params, s.Keeps (f params t)) : s.Keeps (t.command expected body f) := by
  rw [State.command]
  split
  · exact keeps _
  · exact h.same rfl

/-- START takes the part from UNCONFIGURED to RECOVERING, and may start the hold timer (R118, R172). -/
theorem doStart (h : s.Keeps t) (params : List Byte) : s.Keeps (doStart params t) := by
  unfold Machine.doStart
  split
  · exact h.same rfl
  · next mode =>
    have mode : t.mode = .unconfigured := by simpa using mode
    split
    · exact h.same rfl
    · split
      · exact h.same rfl
      · have recovering := h.setMode .recovering (by simp [mode]) (by simp)
        exact ⟨recovering.lines, fun good =>
          ⟨(recovering.modes good).1, nofun, nofun, (recovering.modes good).2.2.2⟩, recovering.ports⟩

/-! ### The step -/

theorem beginEvent (h : s.Keeps t) : s.Keeps t.beginEvent := by
  have trained : s.Keeps (State.trainPorts { t with sent := [] }) := trainPorts (h.same rfl)
  rw [State.beginEvent, State.samplePfw]
  split
  · exact trained.pfwTransition
  · exact trained

/-- The end of an event ends a hold-up whose three parts are complete (R146; log 20). -/
theorem endEvent (h : s.Keeps t) : s.Keeps t.endEvent := by
  by_cases operating : t.mode = .operating
  · rw [State.endEvent_of_operating operating]
    exact h.same (State.FlushesSettled.foldl _ t).controls
  · by_cases holdup : t.mode = .holdup
    · have marked : s.Keeps t.workMarked := by
        rw [t.workMarked_frame]
        exact h.same rfl
      have mode : t.workMarked.mode = .holdup := by rw [t.workMarked_frame, holdup]
      rw [State.endEvent_of_holdup holdup, State.finishHoldup]
      split
      · exact ((marked.appendFaultIn ..).leaveHoldup mode).same rfl
      · exact marked.same rfl
    · rw [State.endEvent_of_idle operating holdup]
      exact h.same rfl

theorem event {f : State → State} (h : s.Keeps t) (keeps : ∀ v, s.Keeps v → s.Keeps (f v)) :
    ∃ u, t.event f = .next u ∧ s.Keeps u :=
  ⟨_, rfl, (keeps _ h.beginEvent).endEvent⟩

/-- The hold timer has run out: it stops, and LOWER_LOSS is reported (R172). -/
theorem lowerLoss (h : s.Keeps t) : s.Keeps t.lowerLoss := by
  have stopped : s.Keeps { t with holdTimer := none } := by
    refine ⟨h.lines, fun good => ?_, h.ports⟩
    obtain ⟨held, down, -, budget⟩ := h.modes good
    exact ⟨held, down, fun _ => rfl, budget⟩
  exact stopped.reportError ..

/-- Power-on reset leaves a state with every invariant (R151). -/
theorem powerOn (s t : State) (addr1 addr0 : Bool) : s.Keeps (t.powerOn addr1 addr0) := by
  refine ⟨fun _ => ⟨rfl, rfl, Nat.zero_le _⟩, fun _ => ?_, fun _ => ?_⟩
  · exact (by decide : State.reset.modeGood)
  · exact (by decide : State.reset.portsGood)

/-- Warm reset keeps the fault list, and ALERT_N with it (R152). -/
theorem warmed (h : s.Keeps t) : s.Keeps t.warmed := by
  have reset := powerOn s t false false
  exact ⟨fun good => ⟨rfl, rfl, (h.lines good).2.2⟩, reset.modes, reset.ports⟩

/-- Every command keeps the invariants of the lines, of the mode and of the ports. -/
theorem exec (h : s.Keeps t) (c : Instr) : After c t s.Keeps := by
  have received : ∀ (l : Link) (form : UnitForm) (f : LinkUnit → State → State),
      (∀ u v, s.Keeps v → s.Keeps (f u v)) →
      ∃ v, (t.event fun v => v.receiveUnit l form f) = .next v ∧ s.Keeps v := by
    intro l form f keeps
    refine h.event fun v hv => ?_
    unfold State.receiveUnit
    split
    · exact hv.damaged l
    · exact hv
    · exact keeps _ v hv
  have managed : ∀ (n : Nat) (body : List Byte) (f : List Byte → State → State),
      (∀ params v, s.Keeps v → s.Keeps (f params v)) →
      ∃ v, (t.event fun v => v.command n body f) = .next v ∧ s.Keeps v :=
    fun n body f keeps => h.event fun v hv => hv.command n body fun params => keeps params v hv
  cases c with
  | powerOnReset addr1 addr0 => exact ⟨_, rfl, (powerOn s t addr1 addr0).trainPorts⟩
  | warmReset => exact ⟨_, rfl, h.warmed.trainPorts⟩
  | pfwNAsserted => exact event (h.same rfl) fun _ hv => hv
  | pfwNDeasserted => exact event (h.same rfl) fun _ hv => hv
  | transactionPacket l bytes =>
    exact h.event (f := (·.judgePacket l bytes)) fun _ hv => hv.judgePacket l bytes
  | init l bytes =>
    refine received l _ _ fun u v hv => ?_
    cases u with
    | init kind reply limits => exact hv.handleInit ..
    | _ => exact hv
  | ack l bytes =>
    refine received l _ _ fun u v hv => ?_
    cases u with
    | ack n => exact hv.handleAck ..
    | _ => exact hv
  | nak l bytes =>
    refine received l _ _ fun u v hv => ?_
    cases u with
    | nak n => exact hv.handleNak ..
    | _ => exact hv
  | credit l bytes =>
    refine received l _ _ fun u v hv => ?_
    cases u with
    | credit limits => exact hv.handleCredit ..
    | _ => exact hv
  | ackTimerExpiry l => exact h.event (f := (·.ackExpiry l)) fun _ hv => hv.ackExpiry l
  | replayTimerExpiry l => exact h.event (f := (·.replayExpiry l)) fun _ hv => hv.replayExpiry l
  | trainingTimerExpiry l => exact h.event (f := (·.trainingExpiry l)) fun _ hv => hv.trainingExpiry l
  | refreshTimerExpiry =>
    refine h.event fun v hv => ?_
    rw [State.refreshExpiry]
    split
    · next due => exact hv.sendCredit due.2
    · exact hv
  | lowerHoldTimerExpiry =>
    refine h.event fun v hv => ?_
    rw [State.holdExpiry]
    split
    · exact hv.lowerLoss
    · exact hv
  | budgetTimerExpiry =>
    refine h.event fun v hv => ?_
    rw [State.budgetTimerExpiry, State.budgetExpiry]
    split
    · split
      · next mode => exact (hv.appendFault ..).leaveHoldup mode
      · exact hv
    · exact hv
  | identify body => exact managed _ _ _ fun _ _ hv => hv.same rfl
  | readStatus body => exact managed _ _ _ fun _ _ hv => hv.same rfl
  | setJournal body =>
    exact managed _ _ _ fun params v hv => hv.same (doSetJournal_keeps v params).controls
  | setParameters body =>
    exact managed _ _ _ fun params v hv => hv.same (doSetParameters_keeps v params).controls
  | writePendingEntry body =>
    exact h.event (f := (·.writePending body)) fun v hv => hv.same (v.writePending_keeps body).controls
  | readPendingEntry body =>
    exact managed _ _ _ fun params v hv => hv.same (doReadPending_keeps v params).controls
  | commitEntry body =>
    exact managed _ _ _ fun params v hv => hv.same (doCommitEntry_keeps v params).controls
  | readEntry body =>
    exact managed _ _ _ fun params v hv => hv.same (doReadEntry_keeps v params).controls
  | start body => exact managed _ _ _ fun params _ hv => hv.doStart params
  | readFault body => exact managed _ _ _ fun params _ hv => hv.doReadFault params
  | unknownCommandCode code body => exact h.event (f := (·.refuse .badArgument)) fun _ hv => hv.same rfl
  | takeRequest => exact h.event fun _ hv => hv.takeRequest
  | linkDownMarkerAtHead => exact h.event fun _ hv => hv.takeMarker
  | holdupIntake => exact h.event fun _ hv => hv.intakeInHoldup
  | arbiterGrant => exact h.event fun _ hv => hv.arbitrate
  | reservation => exact h.event fun _ hv => hv.same State.reserve_controls
  | applyTakeGroup => exact h.event fun _ hv => hv.same State.takeApply_controls
  | checkpointStart => exact h.event fun _ hv => hv.same State.startCheckpoint_controls
  | completionTaken => exact h.event fun _ hv => hv.takeCompletion
  | creditUnitSent =>
    refine h.event fun v hv => ?_
    rw [State.sendDueCredit]
    split
    · next due => exact hv.sendCredit due.2
    · exact hv

end State.Keeps

/-- One step keeps the invariants. -/
theorem State.keeps_of_step (stepped : step s = .next t) : s.Keeps t := by
  unfold step at stepped
  split at stepped
  · cases stepped
    exact .refl s
  · next c rest _ =>
    have front : s.Keeps { s with pending := rest } := (State.Keeps.refl s).same rfl
    obtain ⟨u, answered, keeps⟩ := front.exec c
    cases answered.symm.trans stepped
    exact keeps

/-- Settles O58: the mode and the SAFE line move together, and a record moves ALERT_N with it. -/
theorem stepKeepsTheLines : Obligations.StepKeepsTheLines :=
  fun _ _ good stepped => (State.keeps_of_step stepped).lines good

/-- Settles O59: by the entries into the modes, and by what each change of a link leaves of its port. -/
theorem stepKeepsModesAndPortsInOrder : Obligations.StepKeepsModesAndPortsInOrder :=
  ⟨fun _ _ good stepped => (State.keeps_of_step stepped).modes good,
    fun _ _ good stepped => (State.keeps_of_step stepped).ports good⟩

/-- Settles O57: the reset state is evaluated; the balance of credits is O60's. -/
theorem invariantsHoldAtReset : Obligations.InvariantsHoldAtReset :=
  ⟨by decide, by decide, by decide, by decide, State.creditGood_iff.2 State.Owes.reset⟩

end Sys2Proof.Machine
end

section
/-! PROOFS. Every command answers a next state; PFW_N and the lower hold timer's expiry act by mode
(R137 to R141, R149, R172, R173, R178). -/

namespace Sys2Proof.Machine

variable {s t u : State} {l : Link}

/-! ### Every command completes (R140, R149) -/

theorem State.pending_of_fixed {t u : State} (e : u.fixed = t.fixed) : u.pending = t.pending :=
  congrArg Fixed.pending e

/-- A whole event leaves the queue of commands where its effect does. -/
theorem State.event_pending {f : State → State} (keeps : ∀ v, (f v).pending = v.pending) :
    ∃ t, s.event f = .next t ∧ t.pending = s.pending := by
  refine ⟨_, rfl, ?_⟩
  have ends : ∀ v : State, v.endEvent.fixed = v.fixed := fun v => by simp [State.endEvent]
  have begins : s.beginEvent.fixed = s.fixed := by
    rw [State.beginEvent, State.samplePfw_fixed, State.trainPorts_fixed]
    rfl
  rw [State.pending_of_fixed (ends _), keeps, State.pending_of_fixed begins]

/-- An operation that leaves the fixed part leaves the queue of commands. -/
theorem State.event_pending_of_fixed {f : State → State} (keeps : ∀ v, (f v).fixed = v.fixed) :
    ∃ t, s.event f = .next t ∧ t.pending = s.pending :=
  State.event_pending fun v => State.pending_of_fixed (keeps v)

/-- A packet or unit received leaves the queue of commands. -/
theorem State.receiveUnit_fixed {form : UnitForm} {f : LinkUnit → State → State}
    (keeps : ∀ unit, (f unit s).fixed = s.fixed) : (s.receiveUnit l form f).fixed = s.fixed := by
  unfold State.receiveUnit
  split
  · exact State.damaged_fixed ..
  · rfl
  · exact keeps _

/-- A management command leaves the queue of commands. -/
theorem State.command_pending (expected : Nat) (body : List Byte) {f : List Byte → State → State}
    (keeps : ∀ params v, (f params v).pending = v.pending) :
    ∃ t, (s.event fun v => v.command expected body f) = .next t ∧ t.pending = s.pending := by
  refine State.event_pending fun v => ?_
  rw [State.command]
  split
  · exact keeps _ v
  · rfl

/-- Settles O2: an event leaves the queue of commands where its effect does, and every effect leaves it. -/
theorem everyCommandAnswersNext : Obligations.EveryCommandAnswersNext := by
  unfold Obligations.EveryCommandAnswersNext
  intro c s
  cases c with
  | powerOnReset addr1 addr0 =>
    exact ⟨_, rfl, (State.pending_of_fixed (s.powerOn addr1 addr0).trainPorts_fixed :)⟩
  | warmReset => exact ⟨_, rfl, (State.pending_of_fixed s.warmed.trainPorts_fixed :)⟩
  | pfwNAsserted => exact State.event_pending (s := { s with pfwAsserted := true }) fun _ => rfl
  | pfwNDeasserted => exact State.event_pending (s := { s with pfwAsserted := false }) fun _ => rfl
  | transactionPacket l bytes =>
    exact State.event_pending_of_fixed (f := (·.judgePacket l bytes)) fun v => v.judgePacket_fixed l bytes
  | init l bytes =>
    exact State.event_pending_of_fixed fun v => State.receiveUnit_fixed fun u => onInit_fixed l u v
  | ack l bytes =>
    exact State.event_pending_of_fixed fun v => State.receiveUnit_fixed fun u => onAck_fixed l u v
  | nak l bytes =>
    exact State.event_pending_of_fixed fun v => State.receiveUnit_fixed fun u => onNak_fixed l u v
  | credit l bytes =>
    exact State.event_pending_of_fixed fun v => State.receiveUnit_fixed fun u => onCredit_fixed l u v
  | ackTimerExpiry l => exact State.event_pending_of_fixed (f := (·.ackExpiry l)) fun v => v.ackExpiry_fixed l
  | replayTimerExpiry l =>
    exact State.event_pending_of_fixed (f := (·.replayExpiry l)) fun v => v.replayExpiry_fixed l
  | trainingTimerExpiry l =>
    exact State.event_pending_of_fixed (f := (·.trainingExpiry l)) fun v => v.trainingExpiry_fixed l
  | refreshTimerExpiry => exact State.event_pending_of_fixed State.refreshExpiry_fixed
  | lowerHoldTimerExpiry => exact State.event_pending_of_fixed State.holdExpiry_fixed
  | budgetTimerExpiry => exact State.event_pending_of_fixed State.budgetTimerExpiry_fixed
  | identify body => exact State.command_pending _ _ fun _ _ => rfl
  | readStatus body => exact State.command_pending _ _ fun _ _ => rfl
  | setJournal body => exact State.command_pending _ _ fun params v => (doSetJournal_keeps v params).pending
  | setParameters body =>
    exact State.command_pending _ _ fun params v => (doSetParameters_keeps v params).pending
  | writePendingEntry body =>
    exact State.event_pending (f := (·.writePending body)) fun v => (v.writePending_keeps body).pending
  | readPendingEntry body =>
    exact State.command_pending _ _ fun params v => (doReadPending_keeps v params).pending
  | commitEntry body => exact State.command_pending _ _ fun params v => (doCommitEntry_keeps v params).pending
  | readEntry body => exact State.command_pending _ _ fun params v => (doReadEntry_keeps v params).pending
  | start body =>
    refine State.command_pending _ _ fun params v => ?_
    unfold doStart
    repeat' split
    all_goals rfl
  | readFault body =>
    refine State.command_pending _ _ fun params v => ?_
    unfold doReadFault
    split <;> rfl
  | unknownCommandCode code body => exact State.event_pending (f := (·.refuse .badArgument)) fun _ => rfl
  | takeRequest => exact State.event_pending_of_fixed State.takeRequest_fixed
  | linkDownMarkerAtHead => exact State.event_pending_of_fixed State.takeMarker_fixed
  | holdupIntake => exact State.event_pending_of_fixed State.intakeInHoldup_fixed
  | arbiterGrant => exact State.event_pending_of_fixed State.arbitrate_fixed
  | reservation => exact State.event_pending_of_fixed State.reserve_fixed
  | applyTakeGroup => exact State.event_pending_of_fixed State.takeApply_fixed
  | checkpointStart => exact State.event_pending_of_fixed State.startCheckpoint_fixed
  | completionTaken => exact State.event_pending_of_fixed State.takeCompletion_fixed
  | creditUnitSent => exact State.event_pending_of_fixed State.sendDueCredit_fixed

/-! ### The power-fail pin (R137, R149) -/

/-- PFW_N found asserted, with no port owed its training: the mode's transition, then the end of the event. -/
theorem exec_pfwNAsserted_of_trained (trained : s.trained) :
    exec .pfwNAsserted s =
      .next (State.endEvent (State.pfwTransition { s with pfwAsserted := true, sent := [] })) := by
  show Host.Outcome.next (State.endEvent (State.beginEvent { s with pfwAsserted := true })) = _
  rw [State.beginEvent, State.trainPorts_of_trained (by exact trained), State.samplePfw, if_pos rfl]

/-- Settles O6: the transition of R137 by mode, and what the end of the event adds to it. -/
theorem pfwActsByMode : Obligations.PfwActsByMode := by
  unfold Obligations.PfwActsByMode
  intro s trained
  let v : State := { s with pfwAsserted := true, sent := [] }
  have asserted : exec .pfwNAsserted s = .next v.pfwTransition.endEvent :=
    exec_pfwNAsserted_of_trained trained
  refine ⟨fun mode => ?_, fun mode => ?_, fun mode => ?_, ?_⟩
  · have safe : v.pfwTransition = v.enterSafe := by
      rcases mode with mode | mode <;> simp only [State.pfwTransition, v, mode]
    rw [asserted, safe, State.endEvent_of_stopped (.inl rfl)]
    rfl
  · rw [asserted, State.pfwTransition_of_ignores (s := v) (.inr mode),
      State.endEvent_of_stopped (s := v) mode]
  · rw [asserted, State.pfwTransition_of_ignores (s := v) (.inl mode)]
  · have calm : State.calm { s with pfwAsserted := false } := ⟨trained, nofun⟩
    exact State.event_of_calm calm id

/-! ### The lower hold timer's expiry (R139, R141, R172, R173) -/

/-- LOWER_LOSS is reported with the hold timer stopped. -/
theorem exec_lowerHoldTimerExpiry (calm : s.calm) (running : s.holdTimer.isSome = true) :
    exec .lowerHoldTimerExpiry s = .next (State.endEvent
      (State.reportError { s with sent := [], holdTimer := none } .lowerLoss { link := some .lower })) := by
  have event : exec .lowerHoldTimerExpiry s = .next (State.holdExpiry { s with sent := [] }).endEvent :=
    State.event_of_calm calm State.holdExpiry
  rw [event, State.holdExpiry, if_pos (by exact running)]
  rfl

/-- The pools are empty in HALTED, where every return goes on to the limits (R139, R178). -/
theorem State.pool_enterHalted (cause : Cause) (f : FaultFields) :
    (s.enterHalted cause f).credits.pool = .zero := by
  have back := (State.failReads_spec { (s.appendFault cause f).setMode .halted with
    lower := s.lower.atHalt, holdTimer := none, lowerCredits := .zero, claims := .none
    credits := s.credits.advertise }).credits
  refine (congrArg UpperCredits.pool back).trans ?_
  rw [UpperCredits.giveBack]
  split <;> rfl

/-- A mode in which no source may be granted ends an event with no claim held. -/
theorem State.endEvent_of_unconfigured (mode : s.mode = .unconfigured) :
    s.endEvent = { s with claims := .none } := by
  rw [State.endEvent_of_idle (by simp [mode]) (by simp [mode])]
  exact State.settleClaims_of_none fun src => by simp [mode, Source.permitted]

/-- Settles O25: the error report of R141 by mode, and what the end of the event adds to it. -/
theorem holdTimerExpiryActsByMode : Obligations.HoldTimerExpiryActsByMode := by
  unfold Obligations.HoldTimerExpiryActsByMode
  intro s calm running r
  let v : State := { s with sent := [], holdTimer := none }
  have expired : exec .lowerHoldTimerExpiry s =
      .next (v.reportError .lowerLoss { link := some .lower }).endEvent :=
    exec_lowerHoldTimerExpiry calm running
  refine ⟨fun mode => ?_, fun mode => ?_, fun mode => ?_⟩
  · have ignored : v.reportError .lowerLoss { link := some .lower } = v := by
      rcases mode with mode | mode | mode <;> simp only [State.reportError, v, mode]
    rw [expired, ignored]
    rcases mode with mode | mode
    · rw [State.endEvent_of_unconfigured (s := v) mode]
    · rw [State.endEvent_of_stopped (s := v) mode]
  · have ends : v.reportError .lowerLoss { link := some .lower } =
        (v.appendFault .lowerLoss { link := some .lower }).leaveHoldup := by
      simp only [State.reportError, v, mode]
    have quiet : (v.appendFault .lowerLoss { link := some .lower }).mode.advertises = false :=
      congrArg Mode.advertises mode
    rw [expired, ends, State.leaveHoldup_eq quiet, State.endEvent_of_stopped (.inl rfl)]
    rfl
  · have halts : v.reportError .lowerLoss { link := some .lower } =
        v.enterHalted .lowerLoss { link := some .lower } := by
      rcases mode with mode | mode <;> simp only [State.reportError, v, mode]
    have frame := v.enterHalted_frame .lowerLoss { link := some .lower }
    rw [halts, State.endEvent_of_stopped (.inr (congrArg State.mode frame))] at expired
    exact ⟨_, expired, congrArg State.mode frame, congrArg State.safeLine frame,
      congrArg State.holdTimer frame, congrArg State.lower frame, (congrArg State.faults frame :),
      congrArg State.alert frame, fun i rec found => State.done_of_enterHalted (s := v) found,
      (congrArg State.groups frame :), (congrArg State.staging frame :), (congrArg State.journal frame :),
      (congrArg State.apply frame :), (congrArg State.ckpt frame :), (congrArg State.recovery frame :),
      (congrArg State.lowerRetry frame :), (congrArg State.marks frame :),
      State.pool_enterHalted (s := v) .lowerLoss { link := some .lower }⟩

end Sys2Proof.Machine
end

section
/-! PROOFS. What a port does with a transaction packet (R153, R158 to R160, R165, R166, R176) and with a link
unit that is damaged or discarded (R154, R208, R210). -/

namespace Sys2Proof.Machine

variable {s : State} {l : Link} {bytes : List Byte}

/-! ### The packet commands in a calm state -/

/-- The state a command finds where its event begins with nothing owed: nothing has been sent yet (log 1). -/
def State.begun (s : State) : State := { s with sent := [] }

@[simp] theorem State.begun_port (s : State) (l : Link) : s.begun.port l = s.port l := by
  cases l <;> rfl

/-- A transaction packet is judged by its port. -/
theorem exec_transactionPacket (calm : s.calm) (l : Link) (bytes : List Byte) :
    exec (.transactionPacket l bytes) s =
      .next (State.endEvent (s.begun.judgePacket l bytes)) :=
  State.event_of_calm calm fun s => s.judgePacket l bytes

/-- A received INIT is handled as it reads. -/
theorem exec_init (calm : s.calm) (l : Link) (bytes : List Byte) :
    exec (.init l bytes) s =
      .next (State.endEvent (s.begun.receiveUnit l (parseInit bytes) (onInit l))) :=
  State.event_of_calm calm fun s => s.receiveUnit l (parseInit bytes) (onInit l)

/-- A received ACK is handled as it reads. -/
theorem exec_ack (calm : s.calm) (l : Link) (bytes : List Byte) :
    exec (.ack l bytes) s =
      .next (State.endEvent (s.begun.receiveUnit l (parseAck bytes) (onAck l))) :=
  State.event_of_calm calm fun s => s.receiveUnit l (parseAck bytes) (onAck l)

/-- A received NAK is handled as it reads. -/
theorem exec_nak (calm : s.calm) (l : Link) (bytes : List Byte) :
    exec (.nak l bytes) s =
      .next (State.endEvent (s.begun.receiveUnit l (parseNak bytes) (onNak l))) :=
  State.event_of_calm calm fun s => s.receiveUnit l (parseNak bytes) (onNak l)

/-- A received CREDIT is handled as it reads. -/
theorem exec_credit (calm : s.calm) (l : Link) (bytes : List Byte) :
    exec (.credit l bytes) s =
      .next (State.endEvent (s.begun.receiveUnit l (parseCredit bytes) (onCredit l))) :=
  State.event_of_calm calm fun s => s.receiveUnit l (parseCredit bytes) (onCredit l)

/-! ### The ACK and the NAK a port sends (R159, R160) -/

/-- The port's record as an ACK leaves it: the accepted count is 0 and the ack timer stopped (R159). -/
def Port.ackSent (p : Port) : Port := { p with unacked := 0, ackTimer := false }

/-- The ACK carries the last accepted sequence. -/
theorem State.sendAck_eq (s : State) (l : Link) : s.sendAck l =
    State.setPort { s with sent := s.sent ++ [.unit l (.ack (s.port l).lastAcc)] } l (s.port l).ackSent := by
  cases l <;> rfl

/-- With none outstanding a NAK goes out, which then is. -/
theorem State.sendNak_of_quiet (quiet : (s.port l).nakOut = false) : s.sendNak l =
    State.setPort { s with sent := s.sent ++ [.unit l (.nak (s.port l).lastAcc)] } l
      { s.port l with nakOut := true } := by
  rw [State.sendNak, if_neg (by simp [quiet])]
  cases l <;> rfl

/-- With a NAK outstanding none is sent. -/
theorem State.sendNak_of_outstanding (outstanding : (s.port l).nakOut = true) : s.sendNak l = s :=
  if_pos outstanding

/-! ### The judgement of a packet (R158) -/

/-- A port that is not UP drops a packet. -/
theorem State.judgePacket_of_not_up (notUp : (s.port l).state ≠ .up) : s.judgePacket l bytes = s :=
  if_neg notUp

/-- A good packet in sequence is accepted and handed to its consumer. -/
theorem State.judgePacket_of_expected (up : (s.port l).state = .up) (good : frameGood l bytes = true)
    (expected : frameSeq bytes = (s.port l).expRx) :
    s.judgePacket l bytes = (s.acceptPacket l (frameSeq bytes)).consume l bytes := by
  have none : (frameSeq bytes - (s.port l).expRx).toNat = 0 := by simp [expected]
  rw [State.judgePacket, if_pos up, if_pos good]
  exact if_pos none

/-- A damaged packet, or a good one that is ahead, is answered with a NAK. -/
theorem State.judgePacket_of_nak (up : (s.port l).state = .up)
    (wrong : frameGood l bytes = false ∨
      1 ≤ (frameSeq bytes - (s.port l).expRx).toNat ∧ (frameSeq bytes - (s.port l).expRx).toNat ≤ 2047) :
    s.judgePacket l bytes = s.sendNak l := by
  rw [State.judgePacket, if_pos up]
  split
  · next good =>
    obtain ⟨ahead, within⟩ := wrong.resolve_left (by simp [good])
    dsimp only
    rw [if_neg (by omega), if_pos (by omega)]
  · rfl

/-- A good packet that is behind is answered with an ACK. -/
theorem State.judgePacket_of_behind (up : (s.port l).state = .up) (good : frameGood l bytes = true)
    (behind : 2048 ≤ (frameSeq bytes - (s.port l).expRx).toNat) :
    s.judgePacket l bytes = s.sendAck l := by
  rw [State.judgePacket, if_pos up, if_pos good]
  dsimp only
  rw [if_neg (by omega), if_neg (by omega)]

/-! ### An accepted packet (R158, R159) -/

/-- The port's record with one more packet accepted (R158, R159). -/
def Port.accepted (p : Port) (seq : Seq) : Port :=
  { p with
    expRx := p.expRx + 1#12
    lastAcc := seq
    unacked := p.unacked + 1
    nakOut := false
    ackTimer := p.ackTimer || p.unacked == 0 }

/-- Short of eight the packet only counts. -/
theorem State.acceptPacket_of_few (few : (s.port l).unacked + 1 < 8) (seq : Seq) :
    s.acceptPacket l seq = s.setPort l ((s.port l).accepted seq) := by
  have short : ¬ Config.ackEvery ≤
      ((s.setPort l ((s.port l).accepted seq)).port l).unacked := by
    rw [State.setPort_port]
    exact Nat.not_le.2 few
  exact if_neg short

/-- The eighth is acknowledged at once. -/
theorem State.acceptPacket_of_eighth (eighth : 8 ≤ (s.port l).unacked + 1) (seq : Seq) :
    s.acceptPacket l seq = State.setPort { s with sent := s.sent ++ [.unit l (.ack seq)] } l
      ((s.port l).accepted seq).ackSent := by
  have full : Config.ackEvery ≤ ((s.setPort l ((s.port l).accepted seq)).port l).unacked := by
    rw [State.setPort_port]
    exact eighth
  have sent : s.acceptPacket l seq = (s.setPort l ((s.port l).accepted seq)).sendAck l := if_pos full
  rw [sent, State.sendAck_eq]
  cases l <;> rfl

/-! ### The consumers (R153, R165, R166, R176) -/

/-- A request within the advertised credits is charged and queued (R176). -/
theorem State.consume_of_request (request : isCompletion bytes = false)
    (within : (Request.charge (parseRequest bytes)).fits
      (unconsumed s.credits.limit s.credits.consumed) = true) :
    s.consume .upper bytes =
      { s with
        credits := { s.credits with
          consumed := s.credits.consumed.raise (Request.charge (parseRequest bytes)) }
        queue := s.queue ++ [.request (parseRequest bytes)] } := by
  rw [State.consume, if_neg (by simp [request])]
  exact if_pos within

/-- A packet no consumer uses: of a kind its port does not receive, or an answer nobody waits for. -/
def State.Unused (s : State) (l : Link) (bytes : List Byte) : Prop :=
  isCompletion bytes = (l == .upper) ∨
    l = .lower ∧ isCompletion bytes = true ∧ ∀ i, s.tag (completionTag bytes) ≠ .outstanding i

/-- Such a packet does nothing. -/
theorem State.consume_of_unused (unused : s.Unused l bytes) : s.consume l bytes = s := by
  rcases unused with kind | ⟨rfl, completion, nobody⟩
  · cases l
    · exact if_pos kind
    · exact if_neg (by simp [kind])
  · rw [State.consume, if_pos completion, State.receiveCompletion]
    split
    · next info waiting => exact absurd waiting (nobody info)
    · rfl

/-- The units a write is charged: those of its data, at most four (R176). -/
theorem chargedUnits_eq (length : Nat) : (if 64 < length then 4 else unitsOf length) =
    if length ≤ 64 then (length + 15) / 16 else 4 := by
  rw [unitsOf]
  split
  · rw [if_neg (by omega)]
  · rw [if_pos (by omega)]

/-- Any other request than a read is charged as a write (R176). -/
theorem Request.charge_of_ne_read {r : Request} (other : r.kind = .read → False) :
    r.charge = { wh := 1, wd := if r.length ≤ 64 then (r.length + 15) / 16 else 4, rd := 0 } := by
  rw [Request.charge, chargedUnits_eq]
  split
  · next read => exact (other read).elim
  · rfl

/-- Settles O8: the port accepts the request, and its consumer charges and queues it. -/
theorem requestWithinCreditIsQueued : Obligations.RequestWithinCreditIsQueued := by
  unfold Obligations.RequestWithinCreditIsQueued
  refine ⟨fun r => ?_, ?_⟩
  · split
    · next read => simp only [Request.charge, read]
    · next other => exact Request.charge_of_ne_read other
  · intro bytes s calm up good expected request few within
    rw [exec_transactionPacket calm, State.judgePacket_of_expected (by exact up) good (by exact expected),
      State.acceptPacket_of_few (by exact few), State.consume_of_request request (by exact within)]
    rfl

/-- Settles O10: the port accepts the packet, and no consumer takes it. -/
theorem unusedPacketCountsTowardTheAck : Obligations.UnusedPacketCountsTowardTheAck := by
  unfold Obligations.UnusedPacketCountsTowardTheAck
  intro l bytes s calm up good expected unused
  have idle : ∀ w : State, w.tags = s.tags → w.consume l bytes = w := by
    intro w tags
    exact State.consume_of_unused (by simpa only [State.Unused, State.tag, tags] using unused)
  rw [exec_transactionPacket calm, State.judgePacket_of_expected (by simpa using up) good
    (by simpa using expected)]
  constructor
  · intro few
    rw [State.acceptPacket_of_few (by simpa using few), State.begun_port, idle]
    · rfl
    · exact State.setPort_tags ..
  · intro eighth
    rw [State.acceptPacket_of_eighth (by simpa using eighth), State.begun_port, idle]
    · rfl
    · exact State.setPort_tags ..

/-! ### How a link unit reads (R154, R208, R210) -/

/-- A link unit of another class byte or size is a damaged packet (R208). -/
theorem parseUnit_eq_damaged_iff (cls size : Nat) (fields : Option LinkUnit) :
    parseUnit cls size bytes fields = .damaged ↔ byteAt bytes 0 ≠ cls ∨ bytes.length ≠ size := by
  rw [parseUnit]
  split
  · next form =>
    refine iff_of_false ?_ (by simp [form])
    split
    · cases fields <;> nofun
    · nofun
  · next form => simpa [Decidable.imp_iff_not_or] using form

/-- One of its class and size is discarded for its CRC-16 or a field (R154, R210). -/
theorem parseUnit_eq_discarded_iff (cls size : Nat) (fields : Option LinkUnit) :
    parseUnit cls size bytes fields = .discarded ↔
      byteAt bytes 0 = cls ∧ bytes.length = size ∧ (crc16Good bytes = false ∨ fields = none) := by
  rw [parseUnit]
  split
  · next form =>
    obtain ⟨byte, length⟩ := form
    cases check : crc16Good bytes <;> cases fields <;> simp [byte, length]
  · next form =>
    refine iff_of_false nofun ?_
    rintro ⟨byte, length, -⟩
    exact form ⟨byte, length⟩

/-- An INIT's fields read as an INIT when its training kind and its reply flag are at most 01h (R210). -/
theorem initFields_eq_none_iff :
    initFields bytes = none ↔ ¬(byteAt bytes 1 ≤ 1 ∧ byteAt bytes 2 ≤ 1) := by
  have kind : ∀ code, trainKindOf code = none ↔ ¬ code ≤ 1 := by
    intro code
    rw [trainKindOf]
    split
    · simp_all
    · split <;> simp <;> omega
  have reply : ∀ code, replyOf code = none ↔ ¬ code ≤ 1 := by
    intro code
    rw [replyOf]
    split
    · simp_all
    · split <;> simp <;> omega
  rw [Decidable.not_and_iff_not_or_not, ← kind, ← reply, initFields]
  cases trainKindOf (byteAt bytes 1) <;> cases replyOf (byteAt bytes 2) <;> simp

/-! ### Damaged and discarded units (R158, R160) -/

/-- A link unit that reads as `form`: a discarded one, or a damaged one no NAK answers, has no effect. -/
theorem State.receiveUnit_of_dropped {form : UnitForm} {f : LinkUnit → State → State}
    (dropped : form = .discarded ∨
      form = .damaged ∧ ((s.port l).state ≠ .up ∨ (s.port l).nakOut = true)) :
    s.receiveUnit l form f = s := by
  rcases dropped with rfl | ⟨rfl, notUp | outstanding⟩
  · rfl
  · exact if_neg notUp
  · rw [State.receiveUnit, State.damaged, State.sendNak_of_outstanding outstanding, ite_self]

/-- A damaged link unit in UP is answered as a damaged packet is (R160, R208). -/
theorem State.receiveUnit_of_damaged {f : LinkUnit → State → State} (up : (s.port l).state = .up) :
    s.receiveUnit l .damaged f = s.sendNak l :=
  if_pos up

/-- Whatever unit its command names, a packet is received by the form it reads in. -/
theorem exec_unit_form {c : Instr} {form : UnitForm} (calm : s.calm)
    (command : c = .init l bytes ∧ form = parseInit bytes ∨ c = .ack l bytes ∧ form = parseAck bytes ∨
      c = .nak l bytes ∧ form = parseNak bytes ∨ c = .credit l bytes ∧ form = parseCredit bytes) :
    ∃ f, exec c s = .next (State.endEvent (s.begun.receiveUnit l form f)) := by
  rcases command with ⟨rfl, rfl⟩ | ⟨rfl, rfl⟩ | ⟨rfl, rfl⟩ | ⟨rfl, rfl⟩
  · exact ⟨_, exec_init calm l bytes⟩
  · exact ⟨_, exec_ack calm l bytes⟩
  · exact ⟨_, exec_nak calm l bytes⟩
  · exact ⟨_, exec_credit calm l bytes⟩

/-- Settles O11: the judgement of a packet out of sequence, and of a link unit by the form it reads in. -/
theorem unexpectedPacketIsAnsweredAndDropped : Obligations.UnexpectedPacketIsAnsweredAndDropped := by
  unfold Obligations.UnexpectedPacketIsAnsweredAndDropped
  refine ⟨?_, ?_, ?_⟩
  · intro l bytes s calm
    rw [exec_transactionPacket calm]
    refine ⟨fun up wrong => ?_, fun up good behind => ?_, fun notUp => ?_⟩
    · rw [State.judgePacket_of_nak (by simpa using up) (by simpa using wrong)]
      refine ⟨fun quiet => ?_, fun outstanding => ?_⟩
      · rw [State.sendNak_of_quiet (by simpa using quiet), State.begun_port]
        rfl
      · rw [State.sendNak_of_outstanding (by simpa using outstanding)]
        rfl
    · rw [State.judgePacket_of_behind (by simpa using up) good (by simpa using behind),
        State.sendAck_eq, State.begun_port]
      rfl
    · rw [State.judgePacket_of_not_up (by simpa using notUp)]
      rfl
  · intro c form l bytes s calm command
    obtain ⟨f, received⟩ := exec_unit_form calm command
    rw [received]
    refine ⟨fun dropped => ?_, fun damaged up quiet => ?_⟩
    · rw [State.receiveUnit_of_dropped (by simpa using dropped)]
      rfl
    · rw [damaged, State.receiveUnit_of_damaged (by simpa using up),
        State.sendNak_of_quiet (by simpa using quiet), State.begun_port]
      rfl
  · intro bytes
    refine ⟨⟨parseUnit_eq_damaged_iff .., ?_⟩, ⟨parseUnit_eq_damaged_iff .., ?_⟩,
      ⟨parseUnit_eq_damaged_iff .., ?_⟩, parseUnit_eq_damaged_iff .., ?_⟩
    · exact (parseUnit_eq_discarded_iff ..).trans (by rw [initFields_eq_none_iff])
    · exact (parseUnit_eq_discarded_iff ..).trans (by simp)
    · exact (parseUnit_eq_discarded_iff ..).trans (by simp)
    · exact (parseUnit_eq_discarded_iff ..).trans (by simp)

end Sys2Proof.Machine
end

section
/-! PROOFS. Acknowledgement and replay (R159, R162 to R164, R169, R173): what an ACK or a NAK acknowledges and
leaves of the retry buffers, the replays it starts, and the timers of a port. -/

namespace Sys2Proof.Machine

variable {s : State} {l : Link} {bytes : List Byte} {n nextTx oldest : Seq} {seqs : List Seq} {k : Nat}

/-! ### The sequence an ACK or a NAK names (R162) -/

/-- A sequence behind no other of its kind, and not the one before the oldest, acknowledges the packets up to
its own. -/
theorem ackCount_of_first {before after : List Seq} (first : n ∉ before)
    (named : ∀ q ∈ (before ++ n :: after).head?, q ≠ n + 1#12) :
    ackCount (before ++ n :: after) nextTx n = some (before.length + 1) := by
  have found : (before ++ n :: after).findIdx? (· == n) = some before.length := by
    have unseen : before.findIdx? (· == n) = none := by
      rw [List.findIdx?_eq_none_iff]
      intro q among
      simpa using fun same : q = n => first (same ▸ among)
    simp [List.findIdx?_append, unseen, List.findIdx?_cons]
  cases before with
  | nil =>
    rw [List.nil_append, ackCount, if_neg (named n rfl).symm, ← List.nil_append (n :: after), found]
    rfl
  | cons q before =>
    rw [List.cons_append, ackCount, if_neg (named q rfl).symm, ← List.cons_append, found]
    rfl

/-- A sequence no unacknowledged packet has acknowledges none. -/
theorem ackCount_of_not_mem (absent : n ∉ seqs) :
    ackCount seqs nextTx n = none ∨ ackCount seqs nextTx n = some 0 := by
  have unseen : seqs.findIdx? (· == n) = none := by
    rw [List.findIdx?_eq_none_iff]
    intro q among
    simpa using fun same : q = n => absent (same ▸ among)
  cases seqs with
  | nil =>
    rw [ackCount]
    split
    · exact .inr rfl
    · exact .inl rfl
  | cons oldest rest =>
    rw [ackCount]
    split
    · exact .inr rfl
    · exact .inl (by rw [unseen]; rfl)

/-- The sequence before the oldest is valid and acknowledges none. -/
theorem ackCount_of_before {rest : List Seq} (before : n + 1#12 = oldest) :
    ackCount (oldest :: rest) nextTx n = some 0 :=
  if_pos before

/-! ### The packets acknowledged (R162, R169) -/

/-- The upper link with its oldest packets acknowledged, `rest` left: forward progress (R162). -/
def State.upperAcked (s : State) (rest : List UpperPacket) : State :=
  { s with
    upperRetry := rest
    upper := { s.upper with replayCount := 0, replayTimer := !rest.isEmpty } }

/-- The upper packets up to the one named leave the buffer. -/
theorem State.acknowledge_upper {acked rest : List UpperPacket} {p : UpperPacket}
    (buffer : s.upperRetry = acked ++ p :: rest) :
    s.acknowledge .upper (acked.length + 1) = s.upperAcked rest := by
  have left : s.upperRetry.drop (acked.length + 1) = rest := by simp [buffer]
  have seqs : (s.ackPackets .upper (acked.length + 1)).unackedSeqs .upper = rest.map UpperPacket.seq :=
    congrArg (List.map UpperPacket.seq) left
  rw [State.acknowledge, if_neg (Nat.succ_ne_zero _), State.forwardProgress, seqs, State.ackPackets, left]
  simp [State.setPort, State.port, State.upperAcked, State.mayTransmit]

/-- A lower packet as an acknowledgement that reaches it leaves it. -/
def LowerPacket.acknowledged (p : LowerPacket) : LowerPacket := if p.live then { p with acked := true } else p

/-- What is acknowledged is not live. -/
theorem LowerPacket.live_acknowledged (p : LowerPacket) : p.acknowledged.live = false := by
  rw [LowerPacket.acknowledged]
  split
  · rfl
  · next dead => simpa using dead

/-- Acknowledging the live packets up to `p` reaches all before it, and none behind. -/
theorem ackFirst_append (before after : List LowerPacket) {p : LowerPacket} (live : p.live = true) :
    ackFirst ((before.filter LowerPacket.live).length + 1) (before ++ p :: after) =
      (before ++ [p]).map LowerPacket.acknowledged ++ after := by
  induction before with
  | nil =>
    cases after <;> simp [ackFirst, live, LowerPacket.acknowledged]
  | cons q before ih =>
    cases reached : q.live
    · have passed : q.acknowledged = q := if_neg (by simp [reached])
      simp [ackFirst, reached, ih, passed]
    · have marked : q.acknowledged = { q with acked := true } := if_pos reached
      simp [ackFirst, reached, ih, marked]

/-- The lower buffer with the packets up to `p` acknowledged: those owed no answer leave it (R169). -/
def State.ackedBuffer (s : State) (before : List LowerPacket) (p : LowerPacket) (after : List LowerPacket) :
    List LowerPacket :=
  ((before ++ [p]).map LowerPacket.acknowledged ++ after).filter fun q => !q.acked || s.answerOwed q.body

/-- The packets behind the one named stay unacknowledged, and no other is. -/
theorem State.live_ackedBuffer (s : State) (before after : List LowerPacket) (p : LowerPacket) :
    (s.ackedBuffer before p after).filter LowerPacket.live = after.filter LowerPacket.live := by
  have reached : ((before ++ [p]).map LowerPacket.acknowledged).filter LowerPacket.live = [] := by
    simp [List.filter_eq_nil_iff, LowerPacket.live_acknowledged]
  have stays : ∀ q : LowerPacket,
      (q.live && (!q.acked || s.answerOwed q.body)) = q.live := by
    intro q
    cases acked : q.acked <;> simp [LowerPacket.live, acked]
  rw [State.ackedBuffer, List.filter_filter, List.filter_congr fun q _ => stays q, List.filter_append, reached,
    List.nil_append]

/-- The lower link with the packets up to `p` acknowledged: forward progress, and SAFE does not start the replay
timer (R162, R169, R173). -/
def State.lowerAcked (s : State) (before : List LowerPacket) (p : LowerPacket) (after : List LowerPacket) :
    State :=
  State.setLowerRetry { s with
    lower := { s.lower with
      replayCount := 0, replayTimer := after.any LowerPacket.live && s.mode != .safe } }
    (s.ackedBuffer before p after)

theorem State.unackedSeqs_lowerAcked (s : State) (before after : List LowerPacket) (p : LowerPacket) :
    (s.lowerAcked before p after).unackedSeqs .lower = (after.filter LowerPacket.live).map LowerPacket.seq :=
  congrArg (List.map LowerPacket.seq) (s.live_ackedBuffer before after p)

/-- No packet is left unacknowledged when none is live. -/
theorem isEmpty_filter_live (buffer : List LowerPacket) :
    (buffer.filter LowerPacket.live).isEmpty = !buffer.any LowerPacket.live := by
  induction buffer with
  | nil => rfl
  | cons q buffer ih => cases live : q.live <;> simp [live, ih]

/-- The lower packets up to the one named are acknowledged. -/
theorem State.acknowledge_lower {before after : List LowerPacket} {p : LowerPacket}
    (buffer : s.lowerRetry = before ++ p :: after) (live : p.live = true) :
    s.acknowledge .lower ((before.filter LowerPacket.live).length + 1) = s.lowerAcked before p after := by
  have freed : s.ackPackets .lower ((before.filter LowerPacket.live).length + 1) =
      s.setLowerRetry (s.ackedBuffer before p after) := by
    rw [State.ackPackets, buffer, ackFirst_append before after live]
    rfl
  have seqs : (s.setLowerRetry (s.ackedBuffer before p after)).unackedSeqs .lower =
      (after.filter LowerPacket.live).map LowerPacket.seq :=
    congrArg (List.map LowerPacket.seq) (s.live_ackedBuffer before after p)
  have left : (!((after.filter LowerPacket.live).map LowerPacket.seq).isEmpty) =
      after.any LowerPacket.live := by
    rw [List.isEmpty_map, isEmpty_filter_live, Bool.not_not]
  rw [State.acknowledge, if_neg (Nat.succ_ne_zero _), State.forwardProgress, freed, seqs, left]
  rfl

/-! ### ACK (R162) -/

theorem LinkState.judgesAck_iff (state : LinkState) :
    state.judgesAck = true ↔ state = .up ∨ state = .retrain := by
  cases state <;> simp [LinkState.judgesAck]

/-- A good ACK is handled by its port. -/
theorem exec_ack_of_good (calm : s.calm) (l : Link) (parsed : parseAck bytes = .good (.ack n)) :
    exec (.ack l bytes) s = .next (State.endEvent (s.begun.handleAck l n)) := by
  rw [exec_ack calm, parsed]
  rfl

/-- Where it is judged, an ACK of `k` packets acknowledges them. -/
theorem State.handleAck_of_count (judged : (s.port l).state = .up ∨ (s.port l).state = .retrain)
    (count : ackCount (s.unackedSeqs l) (s.port l).nextTx n = some k) :
    s.handleAck l n = s.acknowledge l k := by
  rw [State.handleAck, if_pos ((LinkState.judgesAck_iff _).2 judged), count]

/-- An ACK that is not judged, or that names no unacknowledged packet, changes nothing. -/
theorem State.handleAck_of_unnamed
    (unnamed : (s.port l).state ≠ .up ∧ (s.port l).state ≠ .retrain ∨ n ∉ s.unackedSeqs l) :
    s.handleAck l n = s := by
  rw [State.handleAck]
  split
  · next judged =>
    have absent := unnamed.resolve_left fun other =>
      ((LinkState.judgesAck_iff _).1 judged).elim other.1 other.2
    rcases ackCount_of_not_mem (nextTx := (s.port l).nextTx) absent with count | count <;> rw [count]
    rfl
  · rfl

/-- The upper packet an ACK or a NAK names, with those before it. -/
theorem State.ackCount_upper {acked rest : List UpperPacket} {p : UpperPacket}
    (buffer : s.upperRetry = acked ++ p :: rest) (seq : p.seq = n) (first : ∀ q ∈ acked, q.seq ≠ n)
    (named : ∀ q ∈ s.upperRetry.head?, q.seq ≠ n + 1#12) :
    ackCount (s.unackedSeqs .upper) nextTx n = some (acked.length + 1) := by
  have seqs : s.unackedSeqs .upper = acked.map UpperPacket.seq ++ n :: rest.map UpperPacket.seq := by
    simp [State.unackedSeqs, buffer, seq]
  rw [seqs, ackCount_of_first (by simpa using first), List.length_map]
  rw [← seqs]
  simpa [State.unackedSeqs] using named

/-- The lower packet an ACK or a NAK names, with the live ones before it. -/
theorem State.ackCount_lower {before after : List LowerPacket} {p : LowerPacket}
    (buffer : s.lowerRetry = before ++ p :: after) (live : p.live = true) (seq : p.seq = n)
    (first : ∀ q ∈ before, q.live = true → q.seq ≠ n)
    (named : ∀ q ∈ (s.lowerRetry.filter LowerPacket.live).head?, q.seq ≠ n + 1#12) :
    ackCount (s.unackedSeqs .lower) nextTx n =
      some ((before.filter LowerPacket.live).length + 1) := by
  have seqs : s.unackedSeqs .lower = (before.filter LowerPacket.live).map LowerPacket.seq ++
      n :: (after.filter LowerPacket.live).map LowerPacket.seq := by
    simp [State.unackedSeqs, buffer, live, seq]
  rw [seqs, ackCount_of_first (by simpa using first), List.length_map]
  rw [← seqs]
  simpa [State.unackedSeqs] using named

/-- Settles O19: the upper packet an ACK names, and the ACKs that name none. -/
theorem ackFreesUpperPackets : Obligations.AckFreesUpperPackets := by
  unfold Obligations.AckFreesUpperPackets
  refine ⟨?_, ?_⟩
  · intro bytes n acked rest p s calm parsed judged buffer seq first named
    rw [exec_ack_of_good calm _ parsed,
      State.handleAck_of_count (by exact judged)
        (State.ackCount_upper (s := s.begun) (by exact buffer) seq first named),
      State.acknowledge_upper (by exact buffer)]
    rfl
  · intro l bytes n s calm parsed unnamed
    have seqs : s.begun.unackedSeqs l = s.unackedSeqs l := by cases l <;> rfl
    rw [exec_ack_of_good calm l parsed, State.handleAck_of_unnamed (by rwa [State.begun_port, seqs])]
    rfl

/-- Settles O20: the lower packet an ACK names; the tags follow the buffer. -/
theorem ackOnTheLowerLinkKeepsOwedPackets : Obligations.AckOnTheLowerLinkKeepsOwedPackets := by
  unfold Obligations.AckOnTheLowerLinkKeepsOwedPackets
  intro bytes n before after p s calm parsed judged buffer live seq first named
  have acked : exec (.ack .lower bytes) s = .next (State.endEvent (s.begun.lowerAcked before p after)) := by
    rw [exec_ack_of_good calm _ parsed,
      State.handleAck_of_count (by exact judged)
        (State.ackCount_lower (s := s.begun) (by exact buffer) live seq first named),
      State.acknowledge_lower (by exact buffer) live]
  refine ⟨_, acked, rfl, rfl, rfl, fun t => ?_⟩
  rw [State.lowerAcked, State.tag_setLowerRetry]
  show releaseTag _ (s.tag t) t = _
  cases s.tag t <;> rfl

end Sys2Proof.Machine
end

section
/-! PROOFS. Replay and the timers of a port (R155, R156, R159, R162 to R164, R173, R179): what starts a replay,
the replay counted or the RETRAIN in its place, and the expiry of each timer. -/

namespace Sys2Proof.Machine

variable {s : State} {l : Link} {bytes : List Byte} {n : Seq} {k : Nat}

/-! ### A counted replay (R163) -/

/-- Every unacknowledged packet is sent again, and no other. -/
theorem State.isEmpty_replayUnits (s : State) (l : Link) :
    (s.replayUnits l).isEmpty = (s.unackedSeqs l).isEmpty := by
  cases l <;> simp [State.replayUnits, State.unackedSeqs]

/-- The port's record after its packets have gone out again for the `count`th time. -/
def Port.replayed (p : Port) (count : Nat) : Port := { p with replayCount := count, replayTimer := true }

/-- Below the limit the packets go out again, and the replay is counted. -/
theorem State.countedReplay_of_few (few : (s.port l).replayCount < 3)
    (left : (s.unackedSeqs l).isEmpty = false) :
    s.countedReplay l = State.setPort { s with sent := s.sent ++ s.replayUnits l } l
      ((s.port l).replayed ((s.port l).replayCount + 1)) := by
  rw [State.countedReplay, if_pos (by exact few), State.replay, if_neg]
  · cases l <;> rfl
  · rw [State.isEmpty_replayUnits]
    cases l <;> exact Bool.eq_false_iff.1 left

/-- At the limit the link enters RETRAIN. -/
theorem State.countedReplay_of_limit (limit : 3 ≤ (s.port l).replayCount) :
    s.countedReplay l = s.inRetrain l false := by
  rw [State.countedReplay, if_neg (Nat.not_lt.2 (by exact limit)), State.enterRetrain_own]

/-! ### What starts a replay (R162, R163, R173) -/

/-- A NAK goes on with the packets it leaves: in UP, where its port may transmit, they are replayed. -/
def State.replayLeft (s : State) (l : Link) : State :=
  if (s.port l).state = .up ∧ (s.unackedSeqs l).isEmpty = false ∧ s.mayTransmit l = true then
    s.countedReplay l
  else s

/-- Where it is judged, a NAK of `k` packets acknowledges them before anything is replayed. -/
theorem exec_nak_of_count (calm : s.calm) (parsed : parseNak bytes = .good (.nak n))
    (judged : (s.port l).state = .up ∨ (s.port l).state = .retrain)
    (count : ackCount (s.begun.unackedSeqs l) (s.port l).nextTx n = some k) :
    exec (.nak l bytes) s = .next (State.endEvent ((s.begun.acknowledge l k).replayLeft l)) := by
  rw [exec_nak calm, parsed]
  show Host.Outcome.next (State.endEvent (s.begun.handleNak l n)) = _
  rw [State.handleNak, State.begun_port, if_pos ((LinkState.judgesAck_iff _).2 judged), count]
  rfl

/-- Writing a port's own record changes nothing. -/
theorem State.setPort_self (s : State) (l : Link) : s.setPort l (s.port l) = s := by
  cases l <;> rfl

/-- A NAK of the sequence before the oldest, or the replay timer's expiry (R163). -/
def State.StartsReplay (s : State) (l : Link) (oldest : Seq) (c : Instr) : Prop :=
  (∃ bytes n, c = .nak l bytes ∧ parseNak bytes = .good (.nak n) ∧ n + 1#12 = oldest) ∨
    c = .replayTimerExpiry l ∧ (s.port l).replayTimer = true

/-- Either starts a counted replay; the expiry has stopped the timer first. -/
theorem exec_replay {c : Instr} {oldest : Seq} {rest : List Seq} (calm : s.calm)
    (up : (s.port l).state = .up) (seqs : s.unackedSeqs l = oldest :: rest)
    (awake : l = .lower → s.mode ≠ .safe) (starts : s.StartsReplay l oldest c) :
    ∃ timer, exec c s = .next (State.endEvent (State.countedReplay
      (s.begun.setPort l { s.port l with replayTimer := timer }) l)) := by
  have seqs' : s.begun.unackedSeqs l = oldest :: rest := by rw [← seqs]; cases l <;> rfl
  have transmits : s.begun.mayTransmit l = true := by
    cases l with
    | upper => rfl
    | lower => simpa [State.mayTransmit, State.begun] using awake rfl
  rcases starts with ⟨bytes, n, rfl, parsed, before⟩ | ⟨rfl, running⟩
  · refine ⟨(s.port l).replayTimer, ?_⟩
    have replays : s.begun.replayLeft l = s.begun.countedReplay l :=
      if_pos ⟨by simpa using up, by rw [seqs']; rfl, transmits⟩
    have unchanged : s.begun.setPort l { s.port l with replayTimer := (s.port l).replayTimer } = s.begun := by
      rw [← State.begun_port]
      exact s.begun.setPort_self l
    rw [exec_nak_of_count calm parsed (.inl up) (seqs' ▸ ackCount_of_before before), unchanged]
    exact congrArg (fun t => Host.Outcome.next (State.endEvent t)) replays
  · refine ⟨false, ?_⟩
    have expired : exec (.replayTimerExpiry l) s = .next (State.endEvent (s.begun.replayExpiry l)) :=
      State.event_of_calm calm fun s => s.replayExpiry l
    rw [expired, State.replayExpiry, State.begun_port, if_pos running]
    dsimp only
    rw [if_pos ⟨by simpa using up, by cases l <;> exact transmits⟩]

/-- A counted replay out of a state whose replay timer may have been stopped. -/
theorem State.countedReplay_begun {timer : Bool} (few : (s.port l).replayCount < 3)
    (left : (s.unackedSeqs l).isEmpty = false) :
    (s.begun.setPort l { s.port l with replayTimer := timer }).countedReplay l =
      State.setPort { s with sent := s.replayUnits l } l
        ((s.port l).replayed ((s.port l).replayCount + 1)) := by
  rw [State.countedReplay_of_few (by simpa using few) (by cases l <;> exact left)]
  cases l <;> rfl

/-- After an acknowledgement the packets left are replayed as the first of a new run. -/
theorem State.replayLeft_of_again (fresh : (s.port l).replayCount = 0) (up : (s.port l).state = .up)
    (left : (s.unackedSeqs l).isEmpty = false) (transmits : s.mayTransmit l = true) :
    s.replayLeft l =
      State.setPort { s with sent := s.sent ++ s.replayUnits l } l ((s.port l).replayed 1) := by
  rw [State.replayLeft, if_pos ⟨up, left, transmits⟩, State.countedReplay_of_few (by simp [fresh]) left,
    fresh]

/-- A NAK that acknowledges on the upper link: what it leaves is replayed in UP, and stays in RETRAIN. -/
theorem State.replayLeft_upperAcked (rest : List UpperPacket) :
    (s.begun.upperAcked rest).replayLeft .upper =
      { s with
        sent :=
          if s.upper.state = .up then rest.map fun q => Sent.completion q.seq q.completion else []
        upperRetry := rest
        upper := { s.upper with
          replayCount := if s.upper.state = .up ∧ rest ≠ [] then 1 else 0
          replayTimer := !rest.isEmpty } } := by
  by_cases again : s.upper.state = .up ∧ rest ≠ []
  · obtain ⟨up, left⟩ := again
    have unacked : ((s.begun.upperAcked rest).unackedSeqs .upper).isEmpty = false := by
      simpa [State.unackedSeqs, State.upperAcked] using left
    rw [State.replayLeft_of_again rfl (by exact up) unacked rfl, if_pos up, if_pos ⟨up, left⟩]
    have running : (!rest.isEmpty) = true := by simpa using left
    rw [running]
    rfl
  · have none : (s.begun.upperAcked rest).replayLeft .upper = s.begun.upperAcked rest := by
      refine if_neg fun ⟨up, unacked, _⟩ => again ⟨up, ?_⟩
      rintro rfl
      cases unacked
    have silent : (if s.upper.state = .up then rest.map fun q => Sent.completion q.seq q.completion
        else []) = [] := by
      split
      · next up => simpa using fun left => again ⟨up, left⟩
      · rfl
    rw [none, if_neg again, silent]
    rfl

/-- What a NAK that acknowledges leaves to replay on the lower link: SAFE sends no packet (R173). -/
def State.leftLower (s : State) (after : List LowerPacket) : List LowerPacket :=
  if s.mode = .safe then [] else after.filter LowerPacket.live

/-- A NAK that acknowledges on the lower link: what it leaves is replayed in UP, and stays in RETRAIN. -/
theorem State.replayLeft_lowerAcked (before after : List LowerPacket) (p : LowerPacket) :
    (s.begun.lowerAcked before p after).replayLeft .lower =
      { s.begun.lowerAcked before p after with
        sent :=
          if s.lower.state = .up then (s.leftLower after).map fun q => Sent.request q.seq q.body else []
        lower := { s.lower with
          replayCount := if s.lower.state = .up ∧ s.leftLower after ≠ [] then 1 else 0
          replayTimer := !(s.leftLower after).isEmpty } } := by
  have timer : (!(s.leftLower after).isEmpty) = (after.any LowerPacket.live && s.mode != .safe) := by
    rw [State.leftLower]
    split
    · next safe => simp [safe]
    · next awake => simp [isEmpty_filter_live, awake]
  have left : s.leftLower after ≠ [] ↔
      ((s.begun.lowerAcked before p after).unackedSeqs .lower).isEmpty = false ∧
        (s.begun.lowerAcked before p after).mayTransmit .lower = true := by
    have transmits : (s.begun.lowerAcked before p after).mayTransmit .lower = (s.mode != .safe) := rfl
    rw [State.unackedSeqs_lowerAcked, transmits, State.leftLower]
    split
    · next safe => simp [safe]
    · next awake => simp [awake]
  rw [timer]
  by_cases again : s.lower.state = .up ∧ s.leftLower after ≠ []
  · obtain ⟨up, some⟩ := again
    obtain ⟨unacked, transmits⟩ := left.1 some
    have units : (s.begun.lowerAcked before p after).replayUnits .lower =
        (s.leftLower after).map fun q => Sent.request q.seq q.body := by
      have awake : s.mode ≠ .safe := fun safe => some (if_pos safe)
      rw [State.leftLower, if_neg awake]
      exact congrArg (List.map _) (s.begun.live_ackedBuffer before after p)
    have running : (after.any LowerPacket.live && s.mode != .safe) = true := by
      rw [← timer]
      simpa using some
    rw [State.replayLeft_of_again rfl (by exact up) unacked transmits, units, if_pos up,
      if_pos ⟨up, some⟩, running]
    rfl
  · have none : (s.begun.lowerAcked before p after).replayLeft .lower =
        s.begun.lowerAcked before p after := by
      exact if_neg fun ⟨up, unacked⟩ => again ⟨up, left.2 unacked⟩
    have silent : (if s.lower.state = .up then
        (s.leftLower after).map fun q => Sent.request q.seq q.body else []) = [] := by
      split
      · next up => simpa using fun some => again ⟨up, some⟩
      · rfl
    rw [none, if_neg again, silent]
    rfl

/-- The other link's port is as it was. -/
theorem State.port_of_other {u : State} (upper : .upper ≠ l → u.upper = s.upper)
    (lower : .lower ≠ l → u.lower = s.lower) : ∀ k, k ≠ l → u.port k = s.port k := by
  intro k other
  cases k with
  | upper => exact upper other
  | lower => exact lower other

/-- Settles O21: the counted replay, RETRAIN in its place, and the NAKs that acknowledge. -/
theorem replaysAreCountedAndEndInRetrain : Obligations.ReplaysAreCountedAndEndInRetrain := by
  unfold Obligations.ReplaysAreCountedAndEndInRetrain
  refine ⟨?_, ?_, ?_, ?_⟩
  · intro c l oldest rest s calm up seqs awake starts few
    obtain ⟨timer, replays⟩ := exec_replay calm up seqs awake starts
    rw [replays, State.countedReplay_begun few (by rw [seqs]; rfl)]
    cases l <;> rfl
  · intro c l oldest rest s calm up seqs awake starts limit
    obtain ⟨timer, replays⟩ := exec_replay calm up seqs awake starts
    rw [State.countedReplay_of_limit (by simpa using limit)] at replays
    refine ⟨_, replays, ?_⟩
    cases l with
    | upper => exact ⟨rfl, State.port_of_other nofun fun _ => rfl, rfl, rfl, rfl, rfl, rfl, rfl, rfl⟩
    | lower => exact ⟨rfl, State.port_of_other (fun _ => rfl) nofun, rfl, rfl, rfl, rfl, rfl, rfl, rfl⟩
  · intro bytes n acked rest p s calm parsed judged buffer seq first named
    rw [exec_nak_of_count calm parsed (by exact judged)
        (State.ackCount_upper (s := s.begun) (by exact buffer) seq first named),
      State.acknowledge_upper (by exact buffer), State.replayLeft_upperAcked]
  · intro bytes n before after p s calm parsed judged buffer live seq first named
    have acked : exec (.nak .lower bytes) s =
        .next (State.endEvent ((s.begun.lowerAcked before p after).replayLeft .lower)) := by
      rw [exec_nak_of_count calm parsed (by exact judged)
          (State.ackCount_lower (s := s.begun) (by exact buffer) live seq first named),
        State.acknowledge_lower (by exact buffer) live]
    rw [State.replayLeft_lowerAcked] at acked
    exact ⟨_, acked, rfl, rfl⟩

/-! ### The timers of a port (R155, R156, R159) -/

/-- The credits of a new session in one record (R179). -/
theorem UpperCredits.newSession_eq (c : UpperCredits) (advertises : Bool) :
    c.newSession advertises =
      { c with
        consumed := .zero
        limit := if advertises then Limits.raise .zero (c.pool.add (unconsumed c.limit c.consumed)) else .zero
        pool := if advertises then .zero else c.pool.add (unconsumed c.limit c.consumed) } := by
  cases advertises <;> rfl

/-- Settles O22: each timer's expiry by whether it runs. -/
theorem portTimersExpire : Obligations.PortTimersExpire := by
  unfold Obligations.PortTimersExpire
  intro l s calm
  have ack : exec (.ackTimerExpiry l) s = .next (State.endEvent (s.begun.ackExpiry l)) :=
    State.event_of_calm calm fun s => s.ackExpiry l
  have training : exec (.trainingTimerExpiry l) s = .next (State.endEvent (s.begun.trainingExpiry l)) :=
    State.event_of_calm calm fun s => s.trainingExpiry l
  have replay : exec (.replayTimerExpiry l) s = .next (State.endEvent (s.begun.replayExpiry l)) :=
    State.event_of_calm calm fun s => s.replayExpiry l
  refine ⟨fun running => ?_, fun running state => ?_, fun stopped => ?_, fun stopped => ?_, fun stopped => ?_⟩
  · rw [ack, State.ackExpiry, State.begun_port, if_pos running, State.sendAck_eq, State.begun_port]
    rfl
  · have again : s.begun.trainingExpiry l = s.begun.startTraining l := by
      rw [State.trainingExpiry, State.begun_port, if_pos running, state]
    have port : (s.port l).atTraining = { s.port l with initSent := true, initRecv := false } := by
      rw [Port.atTraining, ← state, ← running]
    rw [again] at training
    refine ⟨_, training, ?_⟩
    cases l with
    | upper =>
      exact ⟨port, rfl, UpperCredits.newSession_eq .., State.port_of_other nofun fun _ => rfl, rfl⟩
    | lower => exact ⟨port, rfl, rfl, State.port_of_other (fun _ => rfl) nofun, rfl⟩
  · rw [ack, State.ackExpiry, State.begun_port, if_neg (by simp [stopped])]
    rfl
  · rw [training, State.trainingExpiry, State.begun_port, if_neg (by simp [stopped])]
    rfl
  · rw [replay, State.replayExpiry, State.begun_port, if_neg (by simp [stopped])]
    rfl

end Sys2Proof.Machine
end

section
/-! PROOFS. Training, sessions and the re-send (R156, R157, R164, R169 to R173, R179 to R183): how an INIT
brings a link UP, what the entry into UP and a CREDIT unit let the re-send send, and the end of the lower
session. -/

namespace Sys2Proof.Machine

variable {s : State} {l : Link} {bytes : List Byte} {kind : TrainKind} {reply : Bool} {limits : Limits}

/-! ### A good INIT (R156) -/

/-- A good INIT is handled by its port. -/
theorem exec_init_of_good (calm : s.calm) (l : Link)
    (parsed : parseInit bytes = .good (.init kind reply limits)) :
    exec (.init l bytes) s = .next (State.endEvent (s.begun.handleInit l kind reply limits)) := by
  rw [exec_init calm, parsed]
  rfl

/-- A matching INIT sets INIT received and nothing else of its port's record. -/
theorem State.port_initTaken (s : State) (l : Link) (kind : TrainKind) (reply : Bool) (limits : Limits) :
    (s.initTaken l kind reply limits).port l = { s.port l with initRecv := true } := by
  cases reply <;> cases l <;> rfl

/-- With INIT sent, an INIT of kind TRAIN in TRAINING opens a session (R156). -/
theorem State.handleInit_of_training (training : (s.port l).state = .training)
    (sent : (s.port l).initSent = true) :
    s.handleInit l .train reply limits = (s.initTaken l .train reply limits).upFromTraining l := by
  have port := s.port_initTaken l .train reply limits
  unfold State.handleInit
  rw [training]
  show (s.initTaken l .train reply limits).tryUp l = _
  rw [State.tryUp, port, if_pos ⟨sent, rfl⟩, training]

/-- With INIT sent, an INIT of kind RETRAIN in RETRAIN ends the retrain (R156). -/
theorem State.handleInit_of_retrain (retrain : (s.port l).state = .retrain)
    (sent : (s.port l).initSent = true) :
    s.handleInit l .retrain reply limits = (s.initTaken l .retrain reply limits).upFromRetrain l := by
  have port := s.port_initTaken l .retrain reply limits
  unfold State.handleInit
  rw [retrain]
  show (s.initTaken l .retrain reply limits).tryUp l = _
  rw [State.tryUp, port, if_pos ⟨sent, rfl⟩, retrain]

/-- The answer to a matching INIT, unless it is itself a reply (R156). -/
def initAnswer (l : Link) (kind : TrainKind) (reply : Bool) (limits : Limits) : List Sent :=
  if reply then [] else [.unit l (.init kind true limits)]

/-- A matching INIT taken as the first thing of an event on the upper link. -/
theorem State.initTaken_upper (s : State) (kind : TrainKind) (reply : Bool) (limits : Limits) :
    s.begun.initTaken .upper kind reply limits =
      { s with
        sent := initAnswer .upper kind reply s.credits.limit
        upper := { s.upper with initRecv := true } } := by
  cases reply <;> rfl

/-- A matching INIT taken as the first thing of an event on the lower link: the module's limits are taken. -/
theorem State.initTaken_lower (s : State) (kind : TrainKind) (reply : Bool) (limits : Limits) :
    s.begun.initTaken .lower kind reply limits =
      { s with
        sent := initAnswer .lower kind reply .zero
        lower := { s.lower with initRecv := true }
        lowerCredits := { s.lowerCredits with limit := limits } } := by
  cases reply <;> rfl

/-! ### The re-send (R171, R182) -/

/-- With nothing marked, and in SAFE, the re-send sends nothing (R173). -/
theorem State.resend_of_idle (s : State)
    (idle : (∀ p ∈ s.lowerRetry, p.resend = false) ∨ s.mode = .safe) :
    s.resend = s := by
  rcases idle with unmarked | safe
  · exact State.resendOn_of_unmarked s .lower unmarked
  · exact if_neg fun ⟨_, awake⟩ => awake safe

/-- Out of SAFE an UP link's re-send follows the order of the buffer, and changes nothing else. -/
theorem State.resends_resend (up : s.lower.state = .up) (awake : s.mode ≠ .safe) :
    s.resend = { s with
      sent := s.resend.sent, lowerRetry := s.resend.lowerRetry, lowerCredits := s.resend.lowerCredits
      lower := { s.lower with
        nextTx := s.resend.lower.nextTx, replayTimer := s.resend.lower.replayTimer } } ∧
    s.Resends s.resend s.lowerCredits.limit s.lowerCredits.consumed s.lower.nextTx s.sent := by
  obtain ⟨k, buffer, room, fit, stop, length, read, go⟩ := s.resendGo_spec [] s.lowerRetry
  have whole : s.resend = s.resendGo [] s.lowerRetry := if_pos ⟨up, awake⟩
  rw [whole, go]
  refine ⟨rfl, k, room, fit, stop, rfl, rfl, rfl, fun some => ?_, ?_, ?_⟩
  · simp [some]
  · simpa using length
  · simpa using read

/-- The re-send keeps every packet's body in its place. -/
theorem State.map_body_resend (s : State) :
    s.resend.lowerRetry.map LowerPacket.body = s.lowerRetry.map LowerPacket.body := by
  by_cases goes : s.lower.state = .up ∧ s.mode ≠ .safe
  · obtain ⟨-, k, -, -, -, -, -, -, -, length, read⟩ := State.resends_resend goes.1 goes.2
    refine List.ext_getElem? fun i => ?_
    rw [List.getElem?_map, List.getElem?_map]
    cases found : s.lowerRetry[i]? with
    | none =>
      rw [List.getElem?_eq_none (by rw [length]; exact List.getElem?_eq_none_iff.1 found)]
    | some p =>
      rw [read i p found]
      split <;> rfl
  · rw [State.resend, if_neg goes]

/-- The re-send leaves the link's state and the fault list. -/
theorem State.resend_frame (s : State) :
    s.resend.lower.state = s.lower.state ∧ s.resend.faults = s.faults := by
  by_cases goes : s.lower.state = .up ∧ s.mode ≠ .safe
  · obtain ⟨frame, -⟩ := State.resends_resend goes.1 goes.2
    rw [frame]
    exact ⟨rfl, rfl⟩
  · rw [State.resend, if_neg goes]
    exact ⟨rfl, rfl⟩

/-! ### UP out of TRAINING (R156, R171, R172, R180, R181) -/

/-- The port's record in a new session, its partner's INIT received. -/
def Port.opened (p : Port) : Port :=
  { p with
    state := .up, nextTx := 0#12, expRx := 0#12, lastAcc := 4095#12, unacked := 0
    initRecv := true, trainTimer := false }

/-- The lower link UP in a new session, before any packet goes out again. -/
def State.lowerOpened (s : State) (reply : Bool) (limits : Limits) : State :=
  { s with
    sent := initAnswer .lower .train reply .zero
    lower := s.lower.opened
    lowerCredits := { limit := limits, consumed := .zero }
    holdTimer := none }

/-- A TRAIN INIT in TRAINING opens the lower session, and the re-send begins in it. -/
theorem exec_init_lower_training (calm : s.calm)
    (parsed : parseInit bytes = .good (.init .train reply limits)) (training : s.lower.state = .training)
    (sent : s.lower.initSent = true) :
    exec (.init .lower bytes) s = .next (State.endEvent (s.lowerOpened reply limits).resend) := by
  have opened : (s.begun.initTaken .lower .train reply limits).upFromTraining .lower =
      (s.lowerOpened reply limits).resend := by
    rw [State.initTaken_lower]
    rfl
  rw [exec_init_of_good calm _ parsed, State.handleInit_of_training (by exact training) (by exact sent), opened]

/-- Settles O15: the session either link opens; with nothing marked the lower link sends nothing again. -/
theorem trainInitBringsTheLinkUp : Obligations.TrainInitBringsTheLinkUp := by
  unfold Obligations.TrainInitBringsTheLinkUp
  intro bytes reply limits s calm parsed
  refine ⟨fun training sent => ?_, fun training sent unmarked => ?_⟩
  · rw [exec_init_of_good calm _ parsed, State.handleInit_of_training (by exact training) (by exact sent)]
    rw [State.initTaken_upper]
    rfl
  · rw [exec_init_lower_training calm parsed training sent,
      State.resend_of_idle (s.lowerOpened reply limits) (.inl unmarked)]
    rfl

/-! ### A CREDIT unit (R154, R171, R181) -/

/-- The module's limits replaced, nothing sent yet. -/
def State.limited (s : State) (limits : Limits) : State :=
  { s.begun with lowerCredits := { s.lowerCredits with limit := limits } }

/-- A good CREDIT unit is handled by its port. -/
theorem exec_credit_of_good (calm : s.calm) (l : Link) (parsed : parseCredit bytes = .good (.credit limits)) :
    exec (.credit l bytes) s = .next (State.endEvent (s.begun.handleCredit l limits)) := by
  rw [exec_credit calm, parsed]
  rfl

/-- In UP the re-send goes on with the limits of a CREDIT unit. -/
theorem exec_credit_lower_up (calm : s.calm) (parsed : parseCredit bytes = .good (.credit limits))
    (up : s.lower.state = .up) :
    exec (.credit .lower bytes) s = .next (State.endEvent (s.limited limits).resend) := by
  have port : (s.begun.port .lower).state = .up := up
  rw [exec_credit_of_good calm _ parsed, State.handleCredit, port]
  rfl

/-- Settles O16: the re-send out of the state each event begins it in. -/
theorem resendFollowsTheBufferOrder : Obligations.ResendFollowsTheBufferOrder := by
  unfold Obligations.ResendFollowsTheBufferOrder
  refine ⟨?_, ?_⟩
  · intro bytes reply limits s calm parsed training sent
    refine ⟨_, exec_init_lower_training calm parsed training sent, ?_⟩
    by_cases safe : s.mode = .safe
    · rw [State.resend_of_idle (s.lowerOpened reply limits) (.inr safe)]
      exact ⟨rfl, rfl, fun awake => absurd safe awake, fun _ => ⟨rfl, rfl, rfl⟩⟩
    · obtain ⟨frame, resends⟩ := State.resends_resend (s := s.lowerOpened reply limits) rfl safe
      refine ⟨?_, (State.resend_frame _).1, fun _ => resends, fun x => absurd x safe⟩
      rw [frame]
      rfl
  · intro bytes limits s calm parsed up
    rw [EffectOf, exec_credit_lower_up calm parsed up]
    refine ⟨fun awake => ⟨_, rfl, ?_⟩, fun safe => ?_⟩
    · obtain ⟨frame, resends⟩ := State.resends_resend (s := s.limited limits) up awake
      refine ⟨?_, resends⟩
      rw [frame]
      rfl
    · rw [State.resend_of_idle (s.limited limits) (.inr safe)]
      rfl

/-- Settles O23: the limits are replaced in UP and RETRAIN, on the lower link alone. -/
theorem creditUnitReplacesTheModuleLimits : Obligations.CreditUnitReplacesTheModuleLimits := by
  unfold Obligations.CreditUnitReplacesTheModuleLimits
  intro bytes limits s calm parsed
  refine ⟨?_, ?_, ?_⟩
  · rw [exec_credit_of_good calm _ parsed, State.handleCredit]
    split <;> rfl
  · rintro (⟨up, idle⟩ | retrain)
    · rw [exec_credit_lower_up calm parsed up, State.resend_of_idle (s.limited limits) idle]
      rfl
    · have port : (s.begun.port .lower).state = .retrain := retrain
      rw [exec_credit_of_good calm _ parsed, State.handleCredit, port]
      rfl
  · intro closed
    have port : (s.begun.port .lower).state = s.lower.state := rfl
    rw [exec_credit_of_good calm _ parsed, State.handleCredit, port]
    rcases closed with closed | closed <;> rw [closed] <;> rfl

/-! ### The end of the lower session (R157, R170, R172, R183) -/

/-- What stays in the buffer at a lower link DOWN: the writes, and what is owed an answer (R170). -/
def State.keptAtDown (s : State) : List LowerPacket :=
  s.lowerRetry.filter fun p => p.body.tag?.all fun t => (s.tag t).isOutstanding

/-- The packets kept go out again in the next session. -/
def State.markedAtDown (s : State) : List LowerPacket :=
  s.keptAtDown.map fun p => { p with acked := false, resend := true }

/-- The lower link DOWN in one step: the buffer, its tags, the record and the new training. -/
theorem State.lowerDown_eq (s : State) : s.lowerDown =
    { s.recorded { s.record .lowerLinkDown s.mode with
        link := some .lower, count := some s.keptAtDown.length } with
      sent := s.sent ++ [.unit .lower (.init .train false .zero)]
      lower := s.lower.restarted
      lowerRetry := s.markedAtDown
      tags := (s.setLowerRetry s.markedAtDown).tags
      lowerCredits := { limit := .zero, consumed := .zero }
      claims := .none
      holdTimer := if s.holdTimer.isSome then s.holdTimer else some s.params.holdTime } := by
  have kept : (s.lowerRetry.filter fun p => s.staysAtDown p.body) = s.keptAtDown := by
    refine List.filter_congr fun p _ => ?_
    rw [State.staysAtDown, State.answerOwed]
    cases p.body.tag? <;> rfl
  simp only [State.lowerDown, kept, orElse_some_eq_ite]
  rfl

/-- A SPENT tag's packet does not stay, so the tag becomes FREE (R183). -/
theorem releaseTag_of_spent {t : Nat} {info : TagInfo} (tag : s.tag t = .spent info) :
    releaseTag s.markedAtDown (.spent info) t = .free := by
  have gone : (s.markedAtDown.any fun p => p.body.tag? == some t) = false := by
    simp only [State.markedAtDown, State.keptAtDown, List.any_eq_false, List.mem_map, List.mem_filter]
    rintro _ ⟨p, ⟨-, owed⟩, rfl⟩ same
    rw [beq_iff_eq.1 same] at owed
    simp [tag, LowerTag.isOutstanding] at owed
  rw [releaseTag, gone]
  rfl

/-- The partner's restart in UP or RETRAIN takes its link DOWN (R157). -/
theorem State.handleInit_of_restart (opened : (s.port l).state = .up ∨ (s.port l).state = .retrain) :
    s.handleInit l .train false limits = s.linkDown l := by
  unfold State.handleInit
  rcases opened with h | h <;> rw [h]

/-- Settles O17: both causes take the lower link DOWN, and its tags follow the buffer kept. -/
theorem lowerSessionEndKeepsWhatIsOwed : Obligations.LowerSessionEndKeepsWhatIsOwed := by
  unfold Obligations.LowerSessionEndKeepsWhatIsOwed
  intro c s calm ends
  have whole : exec c s = .next (State.endEvent s.begun.lowerDown) := by
    rcases ends with ⟨bytes, limits, rfl, parsed, opened⟩ | ⟨rfl, timer, retrain⟩
    · rw [exec_init_of_good calm _ parsed, State.handleInit_of_restart (by exact opened)]
      rfl
    · have expired : exec (.trainingTimerExpiry .lower) s =
          .next (State.endEvent (s.begun.trainingExpiry .lower)) :=
        State.event_of_calm calm fun s => s.trainingExpiry .lower
      have state : (s.port .lower).state = .retrain := retrain
      rw [expired, State.trainingExpiry, State.begun_port, if_pos (by exact timer), state]
      rfl
  rw [State.lowerDown_eq] at whole
  refine ⟨_, whole, rfl, ?_, fun t => ?_⟩
  · simp [State.setLowerRetry, State.begun]
  · have tag : State.tag _ t = releaseTag s.markedAtDown (s.tag t) t :=
      s.begun.tag_setLowerRetry s.markedAtDown t
    refine tag.trans ?_
    cases found : s.tag t with
    | free => rfl
    | outstanding info => rfl
    | spent info => exact releaseTag_of_spent found

end Sys2Proof.Machine
end

section
/-! PROOFS. RETRAIN and the INITs a port ignores (R156, R157, R162, R164, R173, R181): the way back to UP, with
the packets it replays. -/

namespace Sys2Proof.Machine

variable {s : State} {l : Link} {bytes : List Byte} {kind : TrainKind} {reply : Bool} {limits : Limits}

/-! ### Back to UP (R156, R164) -/

/-- A replay sends every unacknowledged packet again; the timer runs if there is one. -/
theorem State.replay_eq (s : State) (l : Link) : s.replay l =
    State.setPort { s with sent := s.sent ++ s.replayUnits l } l
      { s.port l with replayTimer := (s.port l).replayTimer || !(s.replayUnits l).isEmpty } := by
  rw [State.replay]
  split
  · next none =>
    rw [none, List.isEmpty_iff.1 none]
    cases l <;> simp [State.setPort, State.port]
  · next some =>
    rw [Bool.eq_false_iff.2 some]
    cases l <;> simp [State.setPort, State.port]

/-- The port's record back in UP, `units` replayed. -/
def Port.backUp (p : Port) (units : List Sent) : Port :=
  { p with state := .up, trainTimer := false, replayTimer := p.replayTimer || !units.isEmpty }

/-- The requests a retrain of the lower link replays: SAFE sends none (R173). -/
def State.retrainRequests (s : State) : List Sent :=
  if s.mode = .safe then [] else
    (s.lowerRetry.filter LowerPacket.live).map fun p => .request p.seq p.body

/-- The upper link back in UP. -/
theorem State.upFromRetrain_upper (s : State) : s.upFromRetrain .upper =
    { s with
      sent := s.sent ++ s.upperRetry.map fun p => .completion p.seq p.completion
      upper := s.upper.backUp (s.upperRetry.map fun p => .completion p.seq p.completion)
      credits := { s.credits with refresh := true } } := by
  have replays : s.upFromRetrain .upper =
      ((s.setPort .upper { s.upper with state := .up, trainTimer := false }).upTimers .upper).replay .upper :=
    rfl
  rw [replays, State.replay_eq]
  rfl

/-- The lower link back in UP, before the re-send goes on. -/
def State.lowerBackUp (s : State) : State :=
  { s with
    sent := s.sent ++ s.retrainRequests
    lower := s.lower.backUp s.retrainRequests
    holdTimer := none }

/-- The lower link back in UP: a re-send that waited goes on after the replay (log 41). -/
theorem State.upFromRetrain_lower (s : State) : s.upFromRetrain .lower = s.lowerBackUp.resend := by
  by_cases safe : s.mode = .safe
  · have none : s.retrainRequests = [] := if_pos safe
    have still : State.mayTransmit ((s.setPort .lower { s.port .lower with
        state := .up, trainTimer := false }).upTimers .lower) .lower = false := by
      simp [State.mayTransmit, State.upTimers, State.setPort, safe]
    rw [State.upFromRetrain, if_neg (by rw [still]; nofun), State.lowerBackUp, none]
    simp [State.resendOn, State.upTimers, State.setPort, State.port, Port.backUp]
  · have units : s.retrainRequests = s.replayUnits .lower := if_neg safe
    have awake : State.mayTransmit ((s.setPort .lower { s.port .lower with
        state := .up, trainTimer := false }).upTimers .lower) .lower = true := by
      simpa [State.mayTransmit, State.upTimers, State.setPort] using safe
    rw [State.upFromRetrain, if_pos awake, State.replay_eq, State.lowerBackUp, units]
    rfl

/-- With nothing marked for re-send, what is unacknowledged is replayed. -/
theorem State.retrainRequests_of_unmarked (unmarked : ∀ p ∈ s.lowerRetry, p.resend = false) :
    s.retrainRequests =
      if s.mode = .safe then [] else
        (s.lowerRetry.filter fun p => !p.acked).map fun p => Sent.request p.seq p.body := by
  have live : s.lowerRetry.filter LowerPacket.live = s.lowerRetry.filter fun p => !p.acked :=
    List.filter_congr fun p among => by simp [LowerPacket.live, unmarked p among]
  rw [State.retrainRequests, live]

/-! ### The INITs of R157 -/

/-- The partner's retrain in UP: RETRAIN, and back to UP in the same event (log 12). -/
theorem State.handleInit_of_partner (up : (s.port l).state = .up) :
    s.handleInit l .retrain false limits = ((s.takeLimits l limits).inRetrain l true).upFromRetrain l := by
  unfold State.handleInit
  rw [up]
  exact State.enterRetrain_byPartner _ l

/-- The record of an entry into RETRAIN: how many packets of the buffer are unacknowledged (R164). -/
def State.retrainRecord (s : State) (l : Link) : FaultRecord :=
  { s.record .retrain s.mode with link := some l, count := some (s.unackedCount l) }

/-- The upper link in RETRAIN on the partner's INIT. -/
theorem State.inRetrain_upper (s : State) (limits : Limits) :
    (s.begun.takeLimits .upper limits).inRetrain .upper true =
      { s.recorded (s.retrainRecord .upper) with
        sent := [.unit .upper (.init .retrain true s.credits.limit)]
        upper := s.upper.atRetrain true
        credits := { s.credits with refresh := false } } :=
  rfl

/-- The lower link in RETRAIN on the partner's INIT, whose limits it has taken. -/
theorem State.inRetrain_lower (s : State) (limits : Limits) :
    (s.begun.takeLimits .lower limits).inRetrain .lower true =
      { s.recorded (s.retrainRecord .lower) with
        sent := [.unit .lower (.init .retrain true .zero)]
        lower := s.lower.atRetrain true
        lowerCredits := { s.lowerCredits with limit := limits } } :=
  rfl

/-- A port in UP that its partner has taken through RETRAIN, `units` replayed. -/
theorem Port.backUp_atRetrain (p : Port) (up : p.state = .up) (units : List Sent) :
    (p.atRetrain true).backUp units =
      { p with
        nakOut := false, ackTimer := false, replayCount := 0, initSent := true, initRecv := true
        trainTimer := false, replayTimer := !units.isEmpty } := by
  rw [Port.backUp, ← up]
  rfl

/-- The upper link back in UP out of the partner's retrain. -/
theorem State.upFromRetrain_inRetrain_upper (s : State) (up : s.upper.state = .up) (limits : Limits) :
    ((s.begun.takeLimits .upper limits).inRetrain .upper true).upFromRetrain .upper =
      { s.recorded (s.retrainRecord .upper) with
        sent := .unit .upper (.init .retrain true s.credits.limit) ::
          s.upperRetry.map fun p => .completion p.seq p.completion
        upper := { s.upper with
          nakOut := false, ackTimer := false, replayCount := 0, initSent := true, initRecv := true
          trainTimer := false, replayTimer := !s.upperRetry.isEmpty }
        credits := { s.credits with refresh := true } } := by
  rw [State.upFromRetrain_upper, State.inRetrain_upper, Port.backUp_atRetrain s.upper up, List.isEmpty_map]
  rfl

/-- The lower link back in UP out of the partner's retrain, before the re-send goes on. -/
def State.lowerRetrained (s : State) (limits : Limits) : State :=
  { s.recorded (s.retrainRecord .lower) with
    sent := .unit .lower (.init .retrain true .zero) :: s.retrainRequests
    lower := { s.lower with
      nakOut := false, ackTimer := false, replayCount := 0, initSent := true, initRecv := true
      trainTimer := false, replayTimer := !s.retrainRequests.isEmpty }
    lowerCredits := { s.lowerCredits with limit := limits }
    holdTimer := none }

/-- The partner's retrain on the lower link: after the replay the re-send goes on. -/
theorem exec_init_lower_partner (calm : s.calm) (parsed : parseInit bytes = .good (.init .retrain false limits))
    (up : s.lower.state = .up) :
    exec (.init .lower bytes) s = .next (State.endEvent (s.lowerRetrained limits).resend) := by
  have back : ((s.begun.takeLimits .lower limits).inRetrain .lower true).lowerBackUp =
      s.lowerRetrained limits := by
    rw [State.inRetrain_lower, State.lowerBackUp, Port.backUp_atRetrain s.lower up]
    rfl
  rw [exec_init_of_good calm _ parsed, State.handleInit_of_partner (by exact up), State.upFromRetrain_lower,
    back]

/-- An INIT of kind RETRAIN is ignored in TRAINING. -/
theorem State.handleInit_of_late (training : (s.port l).state = .training) :
    s.handleInit l .retrain reply limits = s := by
  unfold State.handleInit
  rw [training]

/-- A reply in UP is ignored but for the module's limits, with which the re-send goes on (log 11). -/
theorem State.handleInit_of_reply (up : (s.port l).state = .up) :
    s.handleInit l kind true limits = (s.takeLimits l limits).resendOn l := by
  unfold State.handleInit
  rw [up]
  cases kind <;> rfl

/-- A reply of kind TRAIN in RETRAIN is ignored but for the module's limits (log 11). -/
theorem State.handleInit_of_trainReply (retrain : (s.port l).state = .retrain) :
    s.handleInit l .train true limits = s.takeLimits l limits := by
  unfold State.handleInit
  rw [retrain]

/-- Settles O18: the partner's retrain, the retrain that completes, and the INITs a port ignores. -/
theorem otherInitsRetrainOrAreIgnored : Obligations.OtherInitsRetrainOrAreIgnored := by
  unfold Obligations.OtherInitsRetrainOrAreIgnored
  refine ⟨?_, ?_, ?_⟩
  · intro bytes limits s calm parsed
    refine ⟨fun up => ?_, fun up unmarked => ?_, fun up => ?_⟩
    · rw [exec_init_of_good calm _ parsed, State.handleInit_of_partner (by exact up),
        State.upFromRetrain_inRetrain_upper s up]
      rfl
    · rw [exec_init_lower_partner calm parsed up,
        State.resend_of_idle (s.lowerRetrained limits) (.inl unmarked),
        ← State.retrainRequests_of_unmarked unmarked, ← List.countP_eq_length_filter]
      rfl
    · refine ⟨_, exec_init_lower_partner calm parsed up, ?_⟩
      obtain ⟨state, faults⟩ := State.resend_frame (s.lowerRetrained limits)
      rw [← List.countP_eq_length_filter]
      exact ⟨state.trans up, faults, State.map_body_resend (s.lowerRetrained limits)⟩
  · intro bytes reply limits s calm parsed
    refine ⟨fun retrain sent => ?_, fun retrain sent unmarked => ?_⟩
    · rw [exec_init_of_good calm _ parsed, State.handleInit_of_retrain (by exact retrain) (by exact sent),
        State.initTaken_upper, State.upFromRetrain_upper]
      rfl
    · rw [exec_init_of_good calm _ parsed, State.handleInit_of_retrain (by exact retrain) (by exact sent),
        State.initTaken_lower, State.upFromRetrain_lower, State.resend_of_idle _ (.inl (by exact unmarked)),
        ← State.retrainRequests_of_unmarked unmarked]
      rfl
  · intro bytes kind reply limits s calm parsed
    refine ⟨?_, ?_, ?_⟩
    · rintro l training rfl
      rw [exec_init_of_good calm _ parsed, State.handleInit_of_late (by simpa using training)]
      rfl
    · rintro (up | ⟨retrain, rfl⟩) rfl
      · rw [exec_init_of_good calm _ parsed, State.handleInit_of_reply (by exact up)]
        rfl
      · rw [exec_init_of_good calm _ parsed, State.handleInit_of_trainReply (by exact retrain)]
        rfl
    · rintro (⟨up, unmarked⟩ | ⟨retrain, rfl⟩) rfl
      · rw [exec_init_of_good calm _ parsed, State.handleInit_of_reply (by exact up),
          State.resendOn_of_unmarked _ _ (by exact unmarked)]
        rfl
      · rw [exec_init_of_good calm _ parsed, State.handleInit_of_trainReply (by exact retrain)]
        rfl

end Sys2Proof.Machine
end

section
/-! PROOFS. The CREDIT unit of the upper link (R180): sent when it is due, and when the refresh timer expires. -/

namespace Sys2Proof.Machine

variable {s : State} {c : Instr}

/-- CREDIT_UNIT_SENT with a unit due, and the expiry of a running refresh timer, do the same: in UP a unit is
sent (R180). -/
theorem exec_creditUnit (calm : s.calm) (cause : c = .creditUnitSent ∧ s.credits.due = true ∨
    c = .refreshTimerExpiry ∧ s.credits.refresh = true) :
    exec c s = .next (State.endEvent
      (if s.upper.state = .up then State.sendCredit { s with sent := [] } else { s with sent := [] })) := by
  rcases cause with ⟨rfl, due⟩ | ⟨rfl, running⟩
  · have sends : exec .creditUnitSent s = .next (State.endEvent (State.sendDueCredit { s with sent := [] })) :=
      State.event_of_calm calm _
    rw [sends, State.sendDueCredit]
    simp only [due, true_and]
  · have expires : exec .refreshTimerExpiry s =
        .next (State.endEvent (State.refreshExpiry { s with sent := [] })) := State.event_of_calm calm _
    rw [expires, State.refreshExpiry]
    simp only [running, true_and]

/-- Settles O24, by whether the upper link is UP. -/
theorem creditUnitIsSentWithTheCurrentLimits : Obligations.CreditUnitIsSentWithTheCurrentLimits := by
  unfold Obligations.CreditUnitIsSentWithTheCurrentLimits
  intro c s calm cause
  rw [exec_creditUnit calm cause]
  refine ⟨fun up => ?_, fun down => ?_⟩
  · rw [if_pos up]
    rfl
  · rw [if_neg down]

end Sys2Proof.Machine
end

section
/-! PROOFS. The arbiter's examination and its grant (R182, R183, R186, R187, R189): what it finds once a source
lacks credit, and what a grant leaves whichever source it is. -/

namespace Sys2Proof.Machine

variable {s : State} {src : Source} {o : Offer} {c : Claims} {l before after : List Source}

/-! ### The examination (R186, R187) -/

/-- A source is passed over: it has no packet, or one that fits and that a claim of `c` bars. -/
def State.PassedOver (s : State) (c : Claims) (b : Source) : Prop :=
  s.offer b = none ∨ ∃ x, s.offer b = some x ∧ x.body.charge.fits s.lowerAvailable = true ∧
    c.HeldAgainst b x.body.charge

/-- With every source passed over nothing is found. -/
theorem State.examine_of_passed (passed : ∀ b ∈ l, s.PassedOver c b) : s.examine c l = (c, none) := by
  simpa [State.examine] using State.examine_passes c l [] passed

/-- The first source not passed over is found when its charge fits. -/
theorem State.examine_of_eligible (passed : ∀ b ∈ before, s.PassedOver c b) (offered : s.offer src = some o)
    (fits : o.body.charge.fits s.lowerAvailable = true) (free : ¬c.HeldAgainst src o.body.charge) :
    s.examine c (before ++ src :: after) = (c, some (src, o)) := by
  have notBarred : c.bars src o.body.charge = false := by
    rwa [← Bool.not_eq_true, Claims.bars_iff]
  rw [State.examine_passes c before _ passed, State.examine, offered]
  simp [fits, notBarred]

/-- The first source not passed over takes its claims when its charge does not fit, and the examination goes
on under them. -/
theorem State.examine_of_short (passed : ∀ b ∈ before, s.PassedOver c b) (offered : s.offer src = some o)
    (short : o.body.charge.fits s.lowerAvailable = false) :
    s.examine c (before ++ src :: after) = s.examine (c.take src o.body.charge s.lowerAvailable) after := by
  rw [State.examine_passes c before _ passed, State.examine, offered]
  simp [short]

/-- An arbiter event that finds nothing leaves the claims taken. -/
theorem exec_arbiterGrant_of_none (calm : s.calm) (may : s.mayGrant = true)
    (found : s.examine s.claims (Source.circle.rotateLeft s.robin) = (c, none)) :
    exec .arbiterGrant s = .next (State.endEvent { s with sent := [], claims := c }) := by
  rw [exec_arbiterGrant calm may, found]

/-- An arbiter event that finds a source grants it its packet under the claims taken. -/
theorem exec_arbiterGrant_of_some (calm : s.calm) (may : s.mayGrant = true)
    (found : s.examine s.claims (Source.circle.rotateLeft s.robin) = (c, some (src, o))) :
    exec .arbiterGrant s =
      .next (State.endEvent (State.grant { s with sent := [], claims := c } src o)) := by
  rw [exec_arbiterGrant calm may, found]

/-- What it sends, where the circle goes on, and the claims that stay. -/
theorem effect_arbiterGrant_of_some (calm : s.calm) (may : s.mayGrant = true)
    (found : s.examine s.claims (Source.circle.rotateLeft s.robin) = (c, some (src, o))) :
    EffectOf .arbiterGrant s fun u =>
      u.sent = [.request s.lower.nextTx o.body] ∧ u.robin = (src.position + 1) % 7 ∧
        u.claims = c.keep fun h => h != src :=
  ⟨_, exec_arbiterGrant_of_some calm may found, State.grant_frame _ src o⟩

/-! ### The grant (R182, R183, R186, R189) -/

/-- A granted packet before its owner moves on: its charge, its sequence, its tag, its place in the buffer, and
the granted mark of a fence. -/
theorem State.granting_eq (s : State) (src : Source) (o : Offer) : s.granting src o =
    { s with
      sent := [.request s.lower.nextTx o.body]
      robin := (src.position + 1) % 7
      claims := s.claims.keep fun h => h != src
      tags := match o.tag with
        | some (t, info) => s.tags.set t (.outstanding info)
        | none => s.tags
      marks := { s.marks with
        granted := match o.body with
          | .fence _ => s.marks.passSend
          | _ => s.marks.granted }
      lower := { s.lower with nextTx := s.lower.nextTx + 1#12, replayTimer := true }
      lowerCredits := { s.lowerCredits with consumed := s.lowerCredits.consumed.raise o.body.charge }
      lowerRetry := s.lowerRetry ++
        [{ seq := s.lower.nextTx, body := o.body, acked := false, resend := false }] } := by
  obtain ⟨body, _ | tag⟩ := o <;> cases body <;> rfl

/-- The state but for what the owners of lower packets keep of their own: staging and its credits, the
pass-send count, groups, reads, and the engines. -/
def State.besideOwners (s : State) : State :=
  { s with
    staging := State.reset.staging, credits := State.reset.credits
    marks := { s.marks with passSend := State.reset.marks.passSend }
    groups := [], reads := [], journal := State.reset.journal, apply := none, ckpt := State.reset.ckpt
    recovery := State.reset.recovery }

theorem State.besideOwners_freeEntryOnce (p : Entry → Bool) :
    (s.freeEntryOnce p).besideOwners = s.besideOwners := by
  rw [State.freeEntryOnce]
  split <;> rfl

theorem State.besideOwners_journalGranted : s.journalGranted.besideOwners = s.besideOwners := by
  rw [State.journalGranted]
  split
  · rfl
  · split <;> rfl

theorem State.besideOwners_applyGranted : s.applyGranted.besideOwners = s.besideOwners := by
  rw [State.applyGranted]
  split
  · rfl
  · split
    · rfl
    · dsimp only
      split <;> rfl

theorem State.besideOwners_readGranted (tag : Option (Nat × TagInfo)) :
    (s.readGranted tag).besideOwners = s.besideOwners := by
  unfold State.readGranted
  split <;> rfl

theorem State.besideOwners_recoveryReadGranted (tag : Option (Nat × TagInfo)) :
    (s.recoveryReadGranted tag).besideOwners = s.besideOwners := by
  unfold State.recoveryReadGranted
  split <;> rfl

theorem State.besideOwners_redoGranted (sc : Scan) : (s.redoGranted sc).besideOwners = s.besideOwners := by
  rw [State.redoGranted]
  split
  · rfl
  · rw [State.examineGroup]
    split
    · split <;> rfl
    · rfl

theorem State.besideOwners_recoveryGranted (tag : Option (Nat × TagInfo)) :
    (s.recoveryGranted tag).besideOwners = s.besideOwners := by
  unfold State.recoveryGranted
  cases s.recovery.phase with
  | anchors => exact State.besideOwners_recoveryReadGranted tag
  | scan => exact State.besideOwners_recoveryReadGranted tag
  | redo =>
    dsimp only
    split
    · rfl
    · exact State.besideOwners_redoGranted _
  | _ => rfl

/-- An owner that moves on changes nothing beside what the owners keep. -/
theorem State.besideOwners_granted : (s.granted o src).besideOwners = s.besideOwners := by
  cases src with
  | passDrain =>
    obtain ⟨body, tag⟩ := o
    cases body with
    | write => exact State.besideOwners_freeEntryOnce s.sendable
    | _ => rfl
  | journal => exact State.besideOwners_journalGranted
  | apply => exact State.besideOwners_applyGranted
  | checkpoint => rfl
  | readIssue => exact State.besideOwners_readGranted o.tag
  | flushFence => rfl
  | recovery => exact State.besideOwners_recoveryGranted o.tag

/-- Settles O48: the first source not passed over, found at once, past the sources that a claim bars, or past
one that took its claims. -/
theorem arbiterGrantsTheFirstReadySource : Obligations.ArbiterGrantsTheFirstReadySource := by
  unfold Obligations.ArbiterGrantsTheFirstReadySource
  refine ⟨?_, ?_, ?_⟩
  · intro s before after src o calm up unmarked room unclaimed _ order idle offered fits
    have found : s.examine s.claims (Source.circle.rotateLeft s.robin) = (s.claims, some (src, o)) := by
      rw [show Source.circle.rotateLeft s.robin = before ++ src :: after from order]
      refine State.examine_of_eligible (fun b hb => .inl (idle b hb)) offered fits ?_
      rw [unclaimed]
      exact Claims.not_heldAgainst_none _ _
    refine ⟨_, exec_arbiterGrant_of_some calm (State.mayGrant_of up unmarked room) found, ?_⟩
    have frame : ((s.granting src o).granted o src).besideOwners = _ :=
      State.besideOwners_granted.trans (congrArg State.besideOwners (s.granting_eq src o))
    have claims : s.claims.keep (fun h => h != src) = .none := by rw [unclaimed]; rfl
    have marks := congrArg State.marks frame
    exact ⟨congrArg State.robin frame, (congrArg State.claims frame).trans claims, congrArg State.sent frame,
      congrArg State.lowerRetry frame, congrArg State.lower frame, congrArg State.lowerCredits frame,
      congrArg State.tags frame, congrArg Marks.granted marks, (congrArg Marks.durable marks :),
      (congrArg State.mode frame :), (congrArg State.faults frame :), (congrArg State.queue frame :),
      (congrArg State.formed frame :), (congrArg State.streams frame :)⟩
  · intro s before after src o calm up unmarked room _ order passed offered fits free
    refine effect_arbiterGrant_of_some calm (State.mayGrant_of up unmarked room) ?_
    rw [show Source.circle.rotateLeft s.robin = before ++ src :: after from order]
    exact State.examine_of_eligible passed offered fits free
  · intro s before after src o calm up unmarked room _ order idle offered short
    have may := State.mayGrant_of up unmarked room
    intro need credit taken onlyClaims
    have claims : s.claims.take src need credit = taken := Claims.take_eq ..
    have found : s.examine s.claims (Source.circle.rotateLeft s.robin) = s.examine taken after := by
      rw [show Source.circle.rotateLeft s.robin = before ++ src :: after from order, ← claims]
      exact State.examine_of_short (fun b hb => .inl (idle b hb)) offered short
    refine ⟨fun rest => ?_, fun mid post next x split midIdle nextOffered nextFits => ⟨?_, fun free => ?_⟩⟩
    · exact exec_arbiterGrant_of_none calm may
        (found.trans (State.examine_of_passed fun b hb => .inl (rest b hb)))
    · intro held postIdle
      refine exec_arbiterGrant_of_none calm may (found.trans (State.examine_of_passed fun b hb => ?_))
      rw [split, List.mem_append, List.mem_cons] at hb
      rcases hb with hb | rfl | hb
      · exact .inl (midIdle b hb)
      · exact .inr ⟨x, nextOffered, nextFits, held⟩
      · exact .inl (postIdle b hb)
    · refine effect_arbiterGrant_of_some calm may (found.trans ?_)
      rw [split]
      exact State.examine_of_eligible (fun b hb => .inl (midIdle b hb)) nextOffered nextFits free

end Sys2Proof.Machine
end

section
/-! PROOFS. The form of a management command and the refusals (R193, R194), what the port's own commands alone
change (R192, R194), and the simplest of the commands: IDENTIFY, WRITE PENDING ENTRY, SET PARAMETERS (R196,
R199, R200). -/

namespace Sys2Proof.Machine

variable {s : State} {expected : Nat} {body params : List Byte} {f : List Byte → State → State}

/-! ### What no packet, timer or event of the part's own changes (R192, R194) -/

/-- A whole event leaves the fixed part where its effect does. -/
theorem State.event_fixed {f : State → State} (keeps : ∀ v, (f v).fixed = v.fixed) :
    ∃ t, s.event f = .next t ∧ t.fixed = s.fixed := by
  have begins : s.beginEvent.fixed = s.fixed := by
    rw [State.beginEvent, State.samplePfw_fixed, State.trainPorts_fixed]
    rfl
  have ends : (f s.beginEvent).endEvent.fixed = (f s.beginEvent).fixed := by simp [State.endEvent]
  exact ⟨_, rfl, ends.trans ((keeps _).trans begins)⟩

/-- Settles O3: every one of these commands is an event whose effect leaves the fixed part; those of the pin
put its level first. -/
theorem onlyManagementChangesConfiguration : Obligations.OnlyManagementChangesConfiguration := by
  unfold Obligations.OnlyManagementChangesConfiguration
  intro c s cause
  suffices kept : ∃ t, exec c s = .next t ∧ ∃ level, t.fixed = { s.fixed with pfwAsserted := level } ∧
      (c ≠ .pfwNAsserted → c ≠ .pfwNDeasserted → level = s.pfwAsserted) by
    obtain ⟨t, answers, level, fixed, pin⟩ := kept
    exact ⟨t, answers, congrArg Fixed.windows fixed, congrArg Fixed.config fixed,
      congrArg Fixed.params fixed, congrArg Fixed.pendingEntry fixed, congrArg Fixed.response fixed,
      congrArg Fixed.i2cAddress fixed,
      fun notAsserted notDeasserted =>
        (congrArg Fixed.pfwAsserted fixed).trans (pin notAsserted notDeasserted)⟩
  have pin : ∀ level, ∃ t, State.event { s with pfwAsserted := level } id = .next t ∧
      t.fixed = { s.fixed with pfwAsserted := level } :=
    fun _ => State.event_fixed fun _ => rfl
  have work : ∀ f : State → State, (∀ v, (f v).fixed = v.fixed) → exec c s = s.event f →
      ∃ t, exec c s = .next t ∧ ∃ level, t.fixed = { s.fixed with pfwAsserted := level } ∧
        (c ≠ .pfwNAsserted → c ≠ .pfwNDeasserted → level = s.pfwAsserted) := by
    intro f keeps runs
    obtain ⟨t, answers, fixed⟩ := State.event_fixed (s := s) keeps
    exact ⟨t, runs.trans answers, s.pfwAsserted, fixed, fun _ _ => rfl⟩
  rcases cause with rfl | rfl | rfl | rfl | rfl | rfl | rfl | rfl | rfl | rfl | rfl | rfl | rfl | rfl |
    ⟨l, rfl | rfl | rfl⟩ | ⟨l, bytes, rfl | rfl | rfl | rfl | rfl⟩
  · obtain ⟨t, answers, fixed⟩ := pin true
    exact ⟨t, answers, true, fixed, fun other => absurd rfl other⟩
  · obtain ⟨t, answers, fixed⟩ := pin false
    exact ⟨t, answers, false, fixed, fun _ other => absurd rfl other⟩
  · exact work _ State.takeRequest_fixed rfl
  · exact work _ State.takeMarker_fixed rfl
  · exact work _ State.intakeInHoldup_fixed rfl
  · exact work _ State.arbitrate_fixed rfl
  · exact work _ State.reserve_fixed rfl
  · exact work _ State.takeApply_fixed rfl
  · exact work _ State.startCheckpoint_fixed rfl
  · exact work _ State.takeCompletion_fixed rfl
  · exact work _ State.sendDueCredit_fixed rfl
  · exact work _ State.refreshExpiry_fixed rfl
  · exact work _ State.holdExpiry_fixed rfl
  · exact work _ State.budgetTimerExpiry_fixed rfl
  · exact work (·.ackExpiry l) (fun v => v.ackExpiry_fixed l) rfl
  · exact work (·.replayExpiry l) (fun v => v.replayExpiry_fixed l) rfl
  · exact work (·.trainingExpiry l) (fun v => v.trainingExpiry_fixed l) rfl
  · exact work (·.judgePacket l bytes) (fun v => v.judgePacket_fixed l bytes) rfl
  · exact work _ (fun v => State.receiveUnit_fixed fun u => onInit_fixed l u v) rfl
  · exact work _ (fun v => State.receiveUnit_fixed fun u => onAck_fixed l u v) rfl
  · exact work _ (fun v => State.receiveUnit_fixed fun u => onNak_fixed l u v) rfl
  · exact work _ (fun v => State.receiveUnit_fixed fun u => onCredit_fixed l u v) rfl

/-! ### The form of a command (R193) -/

/-- A good form: a declared length that is the received count, which is the expected one. -/
theorem formGood_iff : formGood expected body = true ↔
    body ≠ [] ∧ (body.headD 0#8).toNat = body.length - 1 ∧ body.length - 1 = expected := by
  cases body <;> simp [formGood, paramsOf, byteAt]

/-- A command of a bad form is refused BAD_ARGUMENT. -/
theorem State.event_command_of_badForm (calm : s.calm)
    (bad : body = [] ∨ (body.headD 0#8).toNat ≠ body.length - 1 ∨ body.length - 1 ≠ expected) :
    (s.event fun v => v.command expected body f) = .next (s.begun.refuse .badArgument).endEvent := by
  have form : ¬formGood expected body = true := by
    rw [formGood_iff]
    tauto
  rw [State.event_of_calm calm, State.command, if_neg form]
  rfl

/-- A command of its expected count, which it declares, is judged by its own rule. -/
theorem State.event_command_of_goodForm (calm : s.calm) (small : expected < 256)
    (count : params.length = expected) :
    (s.event fun v => v.command expected (BitVec.ofNat 8 expected :: params) f) =
      .next (f params s.begun).endEvent := by
  have form : formGood expected (BitVec.ofNat 8 expected :: params) = true := by
    simp [formGood_iff, count, Nat.mod_eq_of_lt small]
  rw [State.event_of_calm calm, State.command, if_pos form]
  rfl

/-- Settles O27: no bad form comes to the command's own rule, and an unknown code has no rule. -/
theorem badFormIsRefused : Obligations.BadFormIsRefused := by
  unfold Obligations.BadFormIsRefused
  intro s body calm refused bad
  have refuses : ∀ {expected : Nat} {f : List Byte → State → State}, bad expected →
      (s.event fun v => v.command expected body f) = refused :=
    fun form => State.event_command_of_badForm calm form
  exact ⟨fun form => ⟨refuses form, refuses form, refuses form, refuses form⟩, fun form => refuses form,
    fun form => ⟨refuses form, refuses form⟩, fun form => refuses form, fun form => refuses form,
    fun _ => State.event_of_calm calm (·.refuse .badArgument)⟩

/-! ### IDENTIFY (R196) -/

/-- Settles O28: the description has no part of the state in it. -/
theorem identifyAnswersTheFixedDescription : Obligations.IdentifyAnswersTheFixedDescription := by
  unfold Obligations.IdentifyAnswersTheFixedDescription
  intro s calm
  have description : identifyBytes =
      [0x40#8, 0x21#8, 1#8, 8#8, 16#8, 128#8, 0#8, 1#8, 32#8, 32#8, 16#8, 32#8] := by decide
  rw [← description]
  exact State.event_command_of_goodForm (f := doIdentify) calm (by decide) rfl

/-! ### WRITE PENDING ENTRY (R200) -/

/-- With no index byte WRITE PENDING ENTRY is refused BAD_ARGUMENT. -/
theorem State.writePending_of_noIndex (noIndex : paramsOf body = []) :
    s.writePending body = s.refuse .badArgument := by
  rw [State.writePending, noIndex]

/-- Settles O32, by whether an index byte came behind the declared length; the check is the sum of the stored
bytes. -/
theorem writePendingEntryReplacesTheEntry : Obligations.WritePendingEntryReplacesTheEntry := by
  unfold Obligations.WritePendingEntryReplacesTheEntry
  intro s declared index entry calm
  have judged : ∀ body, exec (.writePendingEntry body) s = .next (s.begun.writePending body).endEvent :=
    fun body => State.event_of_calm calm (·.writePending body)
  refine ⟨fun body short => ?_, ?_⟩
  · have noIndex : paramsOf body = [] := by rcases short with rfl | rfl <;> rfl
    rw [judged, State.writePending_of_noIndex noIndex]
    rfl
  · rw [judged, ← sumCheck_eq]
    rfl

/-! ### SET PARAMETERS (R199) -/

/-- A PASS or DENY code is 0 or 1. -/
theorem passDenyOf_of_le {code : Nat} (known : code ≤ 1) :
    passDenyOf code = some (if code = 0 then .pass else .deny) := by
  unfold passDenyOf
  split
  · rfl
  · exact if_pos (by omega)

theorem passDenyOf_eq_none {code : Nat} : passDenyOf code = none ↔ 1 < code := by
  unfold passDenyOf
  split
  · simp; omega
  · split <;> simp <;> omega

section Parameters

variable {batch holdLow holdHigh budget policy : Byte}

/-- The five parameter bytes are in range: batch 1 to 8, hold time 1 to 1000, budget from 1, policy PASS or
DENY (R199). -/
def ParametersInRange (batch holdLow holdHigh budget policy : Byte) : Prop :=
  1 ≤ batch.toNat ∧ batch.toNat ≤ 8 ∧ 1 ≤ holdLow.toNat + 256 * holdHigh.toNat ∧
    holdLow.toNat + 256 * holdHigh.toNat ≤ 1000 ∧ 1 ≤ budget.toNat ∧ policy.toNat ≤ 1

/-- The hold time is the field of two bytes behind the batch. -/
theorem fieldAt_holdTime :
    fieldAt [batch, holdLow, holdHigh, budget, policy] 1 2 = holdLow.toNat + 256 * holdHigh.toNat := by
  simp [fieldAt, slice, leNat]

/-- Bytes in range are the four values they hold. -/
theorem paramsGood_of_inRange (good : ParametersInRange batch holdLow holdHigh budget policy) :
    paramsGood [batch, holdLow, holdHigh, budget, policy] = some
      { batch := batch.toNat, holdTime := holdLow.toNat + 256 * holdHigh.toNat, budget := budget.toNat
        default := if policy.toNat = 0 then .pass else .deny } := by
  obtain ⟨batchLow, batchHigh, holdAbove, holdBelow, budgetLow, known⟩ := good
  rw [paramsGood, fieldAt_holdTime]
  refine (if_pos ⟨batchLow, batchHigh, holdAbove, holdBelow, budgetLow⟩).trans ?_
  exact congrArg (Option.map _) (passDenyOf_of_le known)

/-- Bytes out of range are no parameter set. -/
theorem paramsGood_of_outOfRange (bad : ¬ParametersInRange batch holdLow holdHigh budget policy) :
    paramsGood [batch, holdLow, holdHigh, budget, policy] = none := by
  rw [paramsGood, fieldAt_holdTime]
  split
  · next ranges =>
    have unknown : 1 < policy.toNat := by
      by_contra known
      obtain ⟨batchLow, batchHigh, holdAbove, holdBelow, budgetLow⟩ := ranges
      exact bad ⟨batchLow, batchHigh, holdAbove, holdBelow, budgetLow, by omega⟩
    exact congrArg (Option.map _) (passDenyOf_eq_none.2 unknown)
  · rfl

end Parameters

/-- Outside UNCONFIGURED, SET PARAMETERS is refused BAD_STATE (R199). -/
theorem doSetParameters_of_badState (mode : s.mode ≠ .unconfigured) :
    doSetParameters params s = s.refuse .badState := if_pos mode

/-- In UNCONFIGURED, SET PARAMETERS refuses bytes that are no parameter set BAD_ARGUMENT (R199). -/
theorem doSetParameters_of_badArgument (mode : s.mode = .unconfigured) (bad : paramsGood params = none) :
    doSetParameters params s = s.refuse .badArgument := by
  rw [doSetParameters, if_neg (not_not_intro mode), bad]

/-- In UNCONFIGURED, SET PARAMETERS replaces the parameter set by the one it carries (R199). -/
theorem doSetParameters_of_good {p : Params} (mode : s.mode = .unconfigured)
    (good : paramsGood params = some p) :
    doSetParameters params s = State.respond { s with params := p } .done [] := by
  rw [doSetParameters, if_neg (not_not_intro mode), good]

/-- Settles O31, by the mode and the ranges. -/
theorem setParametersIsJudgedInOrder : Obligations.SetParametersIsJudgedInOrder := by
  unfold Obligations.SetParametersIsJudgedInOrder
  intro s batch holdLow holdHigh budget policy calm body hold answer good
  have judged : exec (.setParameters body) s =
      .next (doSetParameters [batch, holdLow, holdHigh, budget, policy] s.begun).endEvent :=
    State.event_command_of_goodForm (f := doSetParameters) calm (by decide) rfl
  rw [judged]
  refine ⟨fun mode => ?_, fun mode bad => ?_, fun mode inRange => ?_⟩
  · rw [doSetParameters_of_badState (s := s.begun) mode]
    rfl
  · rw [doSetParameters_of_badArgument (s := s.begun) mode (paramsGood_of_outOfRange bad)]
    rfl
  · rw [doSetParameters_of_good (s := s.begun) mode (paramsGood_of_inRange inRange)]
    rfl

end Sys2Proof.Machine
end

section
/-! PROOFS. The journal configuration and the window table (R198, R200 to R203): which values and overlaps SET
JOURNAL refuses, how an entry reads back, and COMMIT ENTRY's judgement. -/

namespace Sys2Proof.Machine

variable {s : State} {params bytes : List Byte} {e : PendingEntry} {w : Window}

/-! ### Ranges of bytes (R43, R198, R202) -/

/-- A byte lies in a range. -/
abbrev InRange (base bytes a : Nat) : Prop := base ≤ a ∧ a < base + bytes

/-- Two ranges meet exactly when some byte lies in both. -/
theorem rangesMeet_iff {base₁ bytes₁ base₂ bytes₂ : Nat} :
    rangesMeet base₁ bytes₁ base₂ bytes₂ = true ↔
      ∃ a, InRange base₁ bytes₁ a ∧ InRange base₂ bytes₂ a := by
  simp only [rangesMeet, Bool.and_eq_true, decide_eq_true_eq]
  refine ⟨fun _ => ⟨max base₁ base₂, ?_⟩, fun ⟨a, _⟩ => ?_⟩ <;> omega

/-- A window meets a range when it is valid and some byte lies in both. -/
theorem Window.meets_iff {base bytes : Nat} : w.meets base bytes = true ↔
    w.valid = true ∧ ∃ a, InRange w.base.toNat (w.pages * 4096) a ∧ InRange base bytes a := by
  rw [Window.meets, Bool.and_eq_true, rangesMeet_iff]
  rfl

/-! ### SET JOURNAL (R71, R198) -/

/-- The journal sizes are the nine powers of two from 64 KiB on (R71). -/
theorem journalSizes_contains_iff {size : Nat} :
    journalSizes.contains size = true ↔ ∃ k, k ≤ 8 ∧ size = 2 ^ (16 + k) := by
  have power : ∀ k, Config.minJournal * 2 ^ k = 2 ^ (16 + k) := fun k => (pow_add 2 16 k).symm
  rw [List.contains_iff_mem, journalSizes]
  simp only [List.mem_map, List.mem_range, power, Nat.lt_succ_iff]
  exact exists_congr fun k => and_congr_right fun _ => eq_comm

/-- The values of a journal configuration in range, one by one (R71, R198). -/
theorem JournalConfig.valuesGood_iff {c : JournalConfig} : c.valuesGood = true ↔
    (∃ k, k ≤ 8 ∧ c.size = 2 ^ (16 + k)) ∧ c.base.toNat % c.size = 0 ∧ c.moduleSize ≠ 0 ∧
      c.moduleSize % 4096 = 0 ∧ c.moduleSize ≤ 2 ^ 40 ∧ c.base.toNat + c.size ≤ c.moduleSize := by
  simp only [JournalConfig.valuesGood, Bool.and_eq_true, journalSizes_contains_iff, beq_iff_eq,
    decide_eq_true_eq, and_assoc]
  rfl

/-- Outside UNCONFIGURED, SET JOURNAL is refused BAD_STATE (R198). -/
theorem doSetJournal_of_badState (mode : s.mode ≠ .unconfigured) :
    doSetJournal params s = s.refuse .badState := if_pos mode

section Judged

variable (mode : s.mode = .unconfigured)
include mode

/-- In UNCONFIGURED, values out of range are refused BAD_ARGUMENT (R198). -/
theorem doSetJournal_of_badArgument (bad : ¬(journalParams params).valuesGood = true) :
    doSetJournal params s = s.refuse .badArgument :=
  (if_neg (not_not_intro mode)).trans (if_pos (Bool.eq_false_iff.2 bad))

variable (good : (journalParams params).valuesGood = true)
include good

/-- In UNCONFIGURED, good values are refused CONFLICT where a valid window meets the region (R198). -/
theorem doSetJournal_of_conflict
    (meets : (s.windows.any fun w => w.meets (journalParams params).base.toNat (journalParams params).size) =
      true) : doSetJournal params s = s.refuse .conflict := by
  rw [doSetJournal]
  exact (if_neg (not_not_intro mode)).trans ((if_neg (by simp [good])).trans (if_pos meets))

/-- In UNCONFIGURED, good values that meet no valid window take effect (R198). -/
theorem doSetJournal_of_good
    (apart : ¬(s.windows.any fun w => w.meets (journalParams params).base.toNat (journalParams params).size) =
      true) :
    doSetJournal params s = State.respond { s with config := some (journalParams params) } .done [] := by
  rw [doSetJournal]
  exact (if_neg (not_not_intro mode)).trans ((if_neg (by simp [good])).trans (if_neg apart))

end Judged

/-- Settles O30, by the mode, the values and the windows that meet the region. -/
theorem setJournalIsJudgedInOrder : Obligations.SetJournalIsJudgedInOrder := by
  unfold Obligations.SetJournalIsJudgedInOrder
  intro s params calm count c answer good overlap
  have judged : exec (.setJournal (15#8 :: params)) s = .next (doSetJournal params s.begun).endEvent :=
    State.event_command_of_goodForm calm (by decide) count
  have values : c.valuesGood = true ↔ good := JournalConfig.valuesGood_iff
  have meets : (s.windows.any fun w => w.meets c.base.toNat c.size) = true ↔ overlap := by
    simp only [List.any_eq_true, Window.meets_iff]
    exact exists_congr fun w => and_congr_right fun _ => and_congr_right fun _ => exists_congr fun a =>
      and_comm.trans and_assoc
  rw [judged]
  refine ⟨fun mode => ?_, fun mode bad => ?_, fun mode inRange shared => ?_, fun mode inRange apart => ?_⟩
  · rw [doSetJournal_of_badState (s := s.begun) mode]
    rfl
  · rw [doSetJournal_of_badArgument (s := s.begun) mode (mt values.1 bad)]
    rfl
  · rw [doSetJournal_of_conflict (s := s.begun) mode (values.2 inRange) (meets.2 shared)]
    rfl
  · rw [doSetJournal_of_good (s := s.begun) mode (values.2 inRange) (mt meets.1 apart)]
    rfl

/-! ### The bytes of an entry (R201) -/

@[simp] theorem policyOf_code (p : Policy) : policyOf p.code = some p := by cases p <;> rfl

@[simp] theorem passDenyOf_code (p : PassDeny) : passDenyOf p.code = some p := by cases p <;> rfl

/-- The first of an entry's bytes holds the valid field in bit 0, the policy in bits 3:1 and the ungrouped
field in bits 5:4. -/
theorem byteAt_windowBytes_zero (w : Window) :
    byteAt (windowBytes w) 0 % 2 = bitOf w.valid 1 ∧ byteAt (windowBytes w) 0 / 2 % 8 = w.policy.code ∧
      byteAt (windowBytes w) 0 / 16 % 4 = w.ungrouped.code := by
  have valid : bitOf w.valid 1 ≤ 1 := by cases w.valid <;> decide
  have policy : w.policy.code ≤ 3 := by cases w.policy <;> decide
  have ungrouped : w.ungrouped.code ≤ 1 := by cases w.ungrouped <;> decide
  have first : byteAt (windowBytes w) 0 = bitOf w.valid 1 + w.policy.code * 2 + w.ungrouped.code * 16 :=
    toNat_toByte (by omega)
  rw [first]
  omega

/-- The ten bytes decode to the entry (R201). -/
theorem windowBytes_reads (fits : w.pages < 2 ^ 32) :
    (windowBytes w).length = 10 ∧ entryValid (windowBytes w) = w.valid ∧
      entryBase (windowBytes w) = w.base ∧ entryPages (windowBytes w) = w.pages ∧
      entryPolicy (windowBytes w) = some w.policy ∧ entryUngrouped (windowBytes w) = some w.ungrouped := by
  obtain ⟨valid, policy, ungrouped⟩ := byteAt_windowBytes_zero w
  refine ⟨by simp [windowBytes], ?_, ?_, ?_, ?_, ?_⟩
  · rw [entryValid, bitAt, pow_zero, Nat.div_one, valid]
    cases w.valid <;> rfl
  · simp [entryBase, windowBytes]
  · simp [entryPages, windowBytes, fieldAt_leBytes (k := 4) (fits.trans_eq (by decide))]
  · rw [entryPolicy, policy, policyOf_code]
  · rw [entryUngrouped, ungrouped, passDenyOf_code]

/-- Settles O33, by whether an entry is pending and by the index. -/
theorem entriesAreReadBack : Obligations.EntriesAreReadBack := by
  unfold Obligations.EntriesAreReadBack
  intro s calm answer
  have pending : exec (.readPendingEntry [0#8]) s = .next (doReadPending [] s.begun).endEvent :=
    State.event_command_of_goodForm calm (by decide) rfl
  refine ⟨fun empty => ?_, fun e stored => ?_, fun index => ?_⟩
  · rw [pending, doReadPending, show s.begun.pendingEntry = none from empty]
    rfl
  · rw [pending, doReadPending, show s.begun.pendingEntry = some e from stored]
    rfl
  · have entry : exec (.readEntry [1#8, index]) s = .next (doReadEntry [index] s.begun).endEvent :=
      State.event_command_of_goodForm calm (by decide) rfl
    refine ⟨fun above => ?_, fun w inForce known fits => ⟨windowBytes w, ?_, windowBytes_reads fits⟩⟩
    · rw [entry, doReadEntry, byteAt_cons_zero, if_pos above]
      rfl
    · have found : s.begun.windowOf index.toNat = w := by
        rw [State.windowOf, List.getD_eq_getElem?_getD,
          show s.begun.windows[index.toNat]? = some w from inForce]
        rfl
      rw [entry, doReadEntry, byteAt_cons_zero, if_neg (Nat.not_lt.2 known), found]
      rfl

/-! ### The window of a pending entry (R202, R203) -/

/-- The fields of a valid entry that R202 refuses. -/
theorem State.entryFields_eq_none_iff : s.entryFields bytes = none ↔
    ((entryBase bytes).toNat % 4096 ≠ 0 ∨ entryPages bytes = 0 ∨ 2 ^ 28 < entryPages bytes ∨
      entryPolicy bytes = none ∨ entryUngrouped bytes = none ∨
      s.moduleLimit < (entryBase bytes).toNat + entryPages bytes * 4096) := by
  unfold State.entryFields
  cases entryPolicy bytes with
  | none => simp
  | some policy =>
    cases entryUngrouped bytes with
    | none => simp
    | some ungrouped =>
      dsimp only
      split
      · next good =>
        simp only [Window.bytes, Config.pageBytes, Config.maxPages] at good
        simp only [reduceCtorEq, false_or, false_iff]
        omega
      · next bad =>
        simp only [Window.bytes, Config.pageBytes, Config.maxPages] at bad
        simp only [reduceCtorEq, false_or, true_iff]
        omega

/-- Only an entry with its valid field set can fail for its fields: with it clear the window is removed
(R203). -/
theorem State.newWindow_eq_none_iff : s.newWindow bytes = none ↔
    entryValid bytes = true ∧ s.entryFields bytes = none := by
  rw [State.newWindow]
  split <;> simp_all

/-- A new window in conflict shares a byte with another valid entry or with the journal region (R202). -/
theorem State.windowConflict_iff {index : Nat} : s.windowConflict index w = true ↔
    w.valid = true ∧ ∃ a, InRange w.base.toNat (w.pages * 4096) a ∧
      ((∃ j v, s.windows[j]? = some v ∧ j ≠ index ∧ v.valid = true ∧
          InRange v.base.toNat (v.pages * 4096) a) ∨
        ∃ c, s.config = some c ∧ InRange c.base.toNat c.size a) := by
  have other : (s.windows.zipIdx.any fun p => p.2 != index && p.1.meets w.base.toNat w.bytes) = true ↔
      ∃ a, InRange w.base.toNat (w.pages * 4096) a ∧ ∃ j v, s.windows[j]? = some v ∧ j ≠ index ∧
        v.valid = true ∧ InRange v.base.toNat (v.pages * 4096) a := by
    simp only [List.any_eq_true, Bool.and_eq_true, bne_iff_ne, Window.meets_iff, Prod.exists,
      List.mem_zipIdx_iff_getElem?]
    constructor
    · rintro ⟨v, j, found, apart, valid, a, inV, inW⟩
      exact ⟨a, inW, j, v, found, apart, valid, inV⟩
    · rintro ⟨a, inW, j, v, found, apart, valid, inV⟩
      exact ⟨v, j, found, apart, valid, a, inV, inW⟩
  have region : (s.config.any fun c => rangesMeet c.base.toNat c.size w.base.toNat w.bytes) = true ↔
      ∃ a, InRange w.base.toNat (w.pages * 4096) a ∧
        ∃ c, s.config = some c ∧ InRange c.base.toNat c.size a := by
    simp only [Option.any_eq_true, rangesMeet_iff]
    constructor
    · rintro ⟨c, config, a, inC, inW⟩
      exact ⟨a, inW, c, config, inC⟩
    · rintro ⟨a, inW, c, config, inC⟩
      exact ⟨c, config, a, inC, inW⟩
  rw [State.windowConflict, Bool.and_eq_true, Bool.or_eq_true, other, region]
  simp only [and_or_left, exists_or]

/-- A busy window is valid and shares a byte with the line of a live member (R43, R202). -/
theorem State.windowBusy_iff : s.windowBusy w = true ↔
    w.valid = true ∧ ∃ m ∈ s.staging.entries, m.isPass = false ∧
      ∃ a, InRange (lineOf m.addr * 64) 64 a ∧ InRange w.base.toNat (w.pages * 4096) a := by
  simp only [State.windowBusy, State.memberInRange, Bool.and_eq_true, List.any_eq_true, Bool.not_eq_true',
    rangesMeet_iff]
  rfl

/-- The window in force at an index is busy when the table has it and it is (R202). -/
theorem State.windowBusy_windowOf_iff {index : Nat} : s.windowBusy (s.windowOf index) = true ↔
    ∃ v, s.windows[index]? = some v ∧ s.windowBusy v = true := by
  rw [State.windowOf, List.getD_eq_getElem?_getD]
  cases s.windows[index]? with
  | none => simp [State.windowBusy, Window.empty]
  | some v => simp

/-! ### COMMIT ENTRY (R202, R203) -/

/-- In HALTED and SAFE, COMMIT ENTRY is refused BAD_STATE (R202). -/
theorem doCommitEntry_of_badState (mode : s.mode = .halted ∨ s.mode = .safe) :
    doCommitEntry params s = s.refuse .badState := if_pos mode

section Permitted

variable (mode : ¬(s.mode = .halted ∨ s.mode = .safe))
include mode

/-- With nothing pending, COMMIT ENTRY is answered EMPTY (R202). -/
theorem doCommitEntry_of_empty (empty : s.pendingEntry = none) :
    doCommitEntry params s = s.refuse .empty := by
  rw [doCommitEntry, if_neg mode, empty]

/-- With an entry pending, COMMIT ENTRY is answered MISMATCH unless it echoes the triple, and else judged by
the entry (R202). -/
theorem doCommitEntry_of_pending (pending : s.pendingEntry = some e) : doCommitEntry params s =
    if params = [e.index, e.check, flagsByte e] then s.commitMatched e else s.refuse .mismatch := by
  rw [doCommitEntry, if_neg mode, pending]

end Permitted

/-- A SHORT entry, one beyond the table and one with a bad field are refused BAD_ARGUMENT (R202). -/
theorem State.commitMatched_of_badArgument
    (bad : e.short = true ∨ 15 < e.index.toNat ∨ s.newWindow e.bytes = none) :
    s.commitMatched e = s.refuse .badArgument := by
  unfold State.commitMatched
  split
  · rfl
  · next notShort =>
    split
    · rfl
    · next known =>
      have noWindow : s.newWindow e.bytes = none := (bad.resolve_left notShort).resolve_left known
      rw [noWindow]

/-- An entry with good fields is refused CONFLICT, then BUSY, and else put in force (R202, R203). -/
theorem State.commitMatched_of_good (notShort : e.short = false) (known : e.index.toNat ≤ 15)
    (new : s.newWindow e.bytes = some w) : s.commitMatched e =
      if s.windowConflict e.index.toNat w then s.refuse .conflict
      else if s.windowBusy (s.windowOf e.index.toNat) || s.windowBusy w then s.refuse .busy
      else s.putWindow e.index.toNat w e := by
  rw [State.commitMatched, notShort, if_neg Bool.false_ne_true, if_neg (Nat.not_lt.2 known), new]

/-- COMMIT ENTRY with its three parameter bytes passes the form check and is judged (R193). -/
theorem exec_commitEntry (calm : s.calm) (index check flags : Byte) :
    exec (.commitEntry [3#8, index, check, flags]) s =
      .next (doCommitEntry [index, check, flags] s.begun).endEvent :=
  State.event_command_of_goodForm calm (by decide) rfl

/-- Settles O34: the refusals before an entry's window is known, then the conflict, the members and the entry
in force. -/
theorem commitEntryIsJudgedInOrder : Obligations.CommitEntryIsJudgedInOrder := by
  unfold Obligations.CommitEntryIsJudgedInOrder
  refine ⟨?_, ?_⟩
  · intro s index check flags calm body answer
    rw [exec_commitEntry calm]
    refine ⟨fun mode => ?_, fun notHalted notSafe => ?_⟩
    · rw [doCommitEntry_of_badState (s := s.begun) mode]
      rfl
    · have mode : ¬(s.begun.mode = .halted ∨ s.begun.mode = .safe) := not_or.2 ⟨notHalted, notSafe⟩
      refine ⟨fun empty => ?_, ?_⟩
      · rw [doCommitEntry_of_empty mode (by exact empty)]
        rfl
      · intro e pending triple limit fieldsBad
        have echoes : [index, check, flags] = [e.index, e.check, flagsByte e] ↔ triple := by
          simp only [List.cons.injEq, and_true]
          rfl
        have noWindow : s.begun.newWindow e.bytes = none ↔ fieldsBad := by
          rw [State.newWindow_eq_none_iff, State.entryFields_eq_none_iff]
          rfl
        rw [doCommitEntry_of_pending mode (by exact pending)]
        refine ⟨fun differs => ?_, fun same bad => ?_⟩
        · rw [if_neg (mt echoes.1 differs)]
          rfl
        · rw [if_pos (echoes.2 same),
            State.commitMatched_of_badArgument (bad.imp_right (.imp_right noWindow.2))]
          rfl
  · intro s e w calm notHalted notSafe pending notShort known window body answer inside conflict busyIn
    have mode : ¬(s.begun.mode = .halted ∨ s.begun.mode = .safe) := not_or.2 ⟨notHalted, notSafe⟩
    have new : s.begun.newWindow e.bytes = some w := by
      rw [State.newWindow]
      split at window
      · next valid => rw [if_pos valid]; exact window
      · next clear => rw [if_neg clear, window]; rfl
    have conflicts : s.begun.windowConflict e.index.toNat w = true ↔ conflict := State.windowConflict_iff
    have busy : (s.begun.windowBusy (s.begun.windowOf e.index.toNat) || s.begun.windowBusy w) = true ↔
        busyIn w ∨ ∃ v, s.windows[e.index.toNat]? = some v ∧ busyIn v := by
      rw [Bool.or_eq_true, State.windowBusy_windowOf_iff, or_comm]
      simp only [State.windowBusy_iff]
      rfl
    rw [exec_commitEntry calm, doCommitEntry_of_pending mode (by exact pending), if_pos rfl,
      State.commitMatched_of_good notShort known new]
    refine ⟨fun shared => ?_, fun apart live => ?_, fun apart notNew notOld => ?_⟩
    · rw [if_pos (conflicts.2 shared)]
      rfl
    · rw [if_neg (mt conflicts.1 apart), if_pos (busy.2 live)]
      rfl
    · have still : ¬(busyIn w ∨ ∃ v, s.windows[e.index.toNat]? = some v ∧ busyIn v) := by
        rintro (new | ⟨v, inForce, old⟩)
        · exact notNew new
        · exact notOld v inForce old
      rw [if_neg (mt conflicts.1 apart), if_neg (mt busy.1 still)]
      rfl

end Sys2Proof.Machine
end

section
/-! PROOFS. The reports of the management port (R197, R205, R207): the bytes of a fault record, and where in
the bytes of READ STATUS each part of the state stands. -/

namespace Sys2Proof.Machine

variable {s : State} {params block data : List Byte} {off : Nat}

/-! ### Fields read back (R207) -/

/-- A number written into a field reads back modulo the field's range. -/
theorem fieldAt_leBytes_mod (k n : Nat) : fieldAt (leBytes k n) 0 k = n % 256 ^ k := by
  rw [fieldAt, slice, List.drop_zero, List.take_of_length_le (by simp), leNat_leBytes]

/-- An optional word written into a field of its width or wider reads back, zero while it is absent. -/
@[simp] theorem fieldAt_leBytes_optional {w k : Nat} (v : Option (BitVec w)) (wide : w ≤ 8 * k) :
    fieldAt (leBytes k ((v.map BitVec.toNat).getD 0)) 0 k = (v.getD 0#w).toNat := by
  cases v with
  | none => simp
  | some x => exact fieldAt_leBytes_toNat x wide

/-! ### READ FAULT (R205) -/

/-- READ FAULT answers the oldest record, which leaves the list; ALERT_N follows the list (R205). -/
theorem doReadFault_of_oldest {r : FaultRecord} {rest : List FaultRecord} (faults : s.faults = r :: rest) :
    doReadFault params s =
      State.respond { s with faults := rest, alert := !rest.isEmpty } .done (faultBytes r) := by
  rw [doReadFault, faults]

/-- With no record, READ FAULT is answered EMPTY (R205). -/
theorem doReadFault_of_empty (empty : s.faults = []) : doReadFault params s = s.refuse .empty := by
  rw [doReadFault, empty]

/-- The fields of a fault record of more than one byte, an absent one zero; the count is stored
modulo 2^32. -/
theorem faultBytes_fields (r : FaultRecord) :
    fieldAt (faultBytes r) 0 2 = r.seq.toNat ∧ fieldAt (faultBytes r) 6 4 = (r.serial.getD 0#32).toNat ∧
      fieldAt (faultBytes r) 10 5 = (r.addr.getD 0#40).toNat ∧
      fieldAt (faultBytes r) 15 4 = r.count.getD 0 % 2 ^ 32 := by
  refine ⟨?_, ?_, ?_, ?_⟩
  · simp [faultBytes]
  · simp [faultBytes]
  · simp [faultBytes]
  · simp [faultBytes, fieldAt_leBytes_mod]

/-- Settles O36, by whether the list is empty; the bytes of a record stand at their offsets. -/
theorem readFaultRemovesTheOldestRecord : Obligations.ReadFaultRemovesTheOldestRecord := by
  unfold Obligations.ReadFaultRemovesTheOldestRecord
  refine ⟨fun s calm => ?_, fun r => ?_⟩
  · have judged : exec (.readFault [0#8]) s = .next (doReadFault [] s.begun).endEvent :=
      State.event_command_of_goodForm calm (by decide) rfl
    rw [judged]
    refine ⟨fun empty => ?_, fun r rest faults => ?_⟩
    · rw [doReadFault_of_empty (s := s.begun) empty]
      rfl
    · rw [doReadFault_of_oldest (s := s.begun) faults]
      rfl
  · intro data flag
    obtain ⟨seq, serial, addr, count⟩ := faultBytes_fields r
    have cause : data[2]? = some (toByte r.cause.code) := rfl
    have mode : data[3]? = some (toByte r.mode.code) := rfl
    have link : data[19]? = some (toByte (bitOf (r.link == some .lower) 1)) := rfl
    refine ⟨by simp [data, faultBytes], seq, cause.trans ?_, mode.trans ?_, rfl, rfl, serial, addr, count,
      link.trans ?_⟩
    · cases r.cause <;> rfl
    · cases r.mode <;> rfl
    · by_cases lower : r.link = some .lower <;> simp [lower, bitOf, toByte]

/-! ### Blocks within a run of bytes -/

/-- A byte of a block that stands at an offset. -/
theorem getElem?_of_block (stands : block <+: data.drop off) {i : Nat} (within : i < block.length) :
    data[off + i]? = block[i]? := by
  obtain ⟨rest, split⟩ := stands
  rw [← List.getElem?_drop, ← split, List.getElem?_append_left within]

/-- A field of a block that stands at an offset. -/
theorem fieldAt_of_block (stands : block <+: data.drop off) {i len : Nat} (within : i + len ≤ block.length) :
    fieldAt data (off + i) len = fieldAt block i len := by
  obtain ⟨rest, split⟩ := stands
  rw [fieldAt, slice, ← List.drop_drop, ← split]
  exact fieldAt_append_left within

/-- A block stands as far behind a run of bytes put before it. -/
theorem block_append {pre post : List Byte} {n : Nat} (stands : block <+: data.drop off)
    (length : pre.length = n) : block <+: (pre ++ data ++ post).drop (n + off) := by
  subst length
  rw [List.append_assoc, List.drop_length_add_append, List.drop_append]
  exact stands.trans (List.prefix_append ..)

section Table

variable {α : Type} {f : α → List Byte} {k : Nat} (size : ∀ a, (f a).length = k)
include size

/-- The bytes of a table are its length in entries of one size. -/
theorem length_table (l : List α) : (l.map f).flatten.length = k * l.length := by
  simp [List.length_flatten, Function.comp_def, size, Nat.mul_comm]

/-- The bytes of a table's entry stand at its index. -/
theorem block_table {l : List α} {i : Nat} {a : α} (entry : l[i]? = some a) :
    f a <+: (l.map f).flatten.drop (k * i) := by
  induction l generalizing i with
  | nil => cases entry
  | cons b l ih =>
    rw [List.map_cons, List.flatten_cons]
    cases i with
    | zero =>
      obtain rfl : b = a := Option.some.inj entry
      exact List.prefix_append ..
    | succ i =>
      have next : k * (i + 1) = (f b).length + k * i := by rw [size, Nat.mul_succ, Nat.add_comm]
      rw [next, List.drop_length_add_append]
      exact ih entry

end Table

/-! ### The bytes of READ STATUS (R197) -/

theorem length_groupBytes (g : Option Group) : (groupBytes g).length = 8 := by cases g <;> simp [groupBytes]

theorem State.length_statusHead (s : State) : s.statusHead.length = 9 := by simp [State.statusHead]

theorem State.length_statusJournal (s : State) : s.statusJournal.length = 22 := by
  simp [State.statusJournal]

theorem State.length_statusTail (s : State) : s.statusTail.length = 6 := by simp [State.statusTail]

/-- A free group record reads as eight bytes of zero (log 44). -/
theorem groupBytes_none {k : Nat} (within : k < 8) : (groupBytes none)[k]? = some 0#8 := by
  rw [groupBytes, zeros, List.getElem?_replicate, if_pos within]

/-- The serial of a group record in use, zero while it is unset. -/
theorem fieldAt_groupBytes_serial (g : Group) :
    fieldAt (groupBytes (some g)) 4 4 = (g.serial.getD 0#32).toNat := by
  simp [groupBytes]

/-- The journal's fields of more than one byte, zero while they are unset. -/
theorem State.statusJournal_fields (s : State) :
    fieldAt s.statusJournal 0 6 = (s.journal.head.getD 0#48).toNat ∧
      fieldAt s.statusJournal 6 6 = (s.ckpt.tail.getD 0#48).toNat ∧
      fieldAt s.statusJournal 12 4 = (s.ckpt.generation.getD 0#32).toNat ∧
      fieldAt s.statusJournal 17 4 = (s.serial.getD 0#32).toNat := by
  simp [State.statusJournal, orZero]

/-- The data units in use, modulo the field's range. -/
theorem State.fieldAt_statusHead_units (s : State) :
    fieldAt s.statusHead 3 2 = totalUnits s.staging.entries % 2 ^ 16 := by
  simp [State.statusHead, fieldAt_leBytes_mod]

/-- The oldest record's sequence number, zero with no record. -/
theorem State.fieldAt_statusTail_seq (s : State) :
    fieldAt s.statusTail 4 2 = match s.faults with
      | [] => 0
      | r :: _ => r.seq.toNat := by
  cases faults : s.faults <;> simp [State.statusTail, faults]

/-- A MEMBER entry in a state, by the two states there are. -/
theorem Entry.memberIn_eq : Entry.memberIn .held = (fun e => match e.kind with
      | .member _ _ .held => true
      | _ => false) ∧
    Entry.memberIn .applied = fun e => match e.kind with
      | .member _ _ .applied => true
      | _ => false := by
  constructor
  all_goals
    funext e
    unfold Entry.memberIn
    cases e.kind with
    | pass st => rfl
    | member r k st => cases st <;> rfl

section Parts

variable (sized : s.sized)

/-- The part's mode, links and staging stand first. -/
theorem State.block_statusHead : s.statusHead <+: s.statusBytes.drop 0 := by
  simp only [State.statusBytes, List.append_assoc, List.drop_zero]
  exact List.prefix_append ..

include sized

theorem State.length_groupTable : (s.groups.map groupBytes).flatten.length = 128 := by
  rw [length_table length_groupBytes, sized.2.1]
  rfl

theorem State.length_streamTable : (s.streams.map streamBytes).flatten.length = 24 := by
  rw [length_table (k := 3) fun _ => rfl, sized.2.2.1]
  rfl

/-- The bytes of READ STATUS are 189. -/
theorem State.length_statusBytes : s.statusBytes.length = 189 := by
  simp only [State.statusBytes, List.length_append, s.length_statusHead, State.length_groupTable sized,
    State.length_streamTable sized, s.length_statusJournal, s.length_statusTail]

/-- A group record stands in the table behind the first nine bytes. -/
theorem State.block_group {r : Nat} (inTable : r < 16) :
    groupBytes (s.group? r) <+: s.statusBytes.drop (9 + 8 * r) := by
  have entry : s.groups[r]? = some (s.group? r) := by
    have inside : r < s.groups.length := by rw [sized.2.1]; exact inTable
    rw [State.group?, List.getD_eq_getElem?_getD, List.getElem?_eq_getElem inside]
    rfl
  have split : s.statusBytes = s.statusHead ++ (s.groups.map groupBytes).flatten ++
      ((s.streams.map streamBytes).flatten ++ s.statusJournal ++ s.statusTail) := by
    simp only [State.statusBytes, List.append_assoc]
  rw [split]
  exact block_append (block_table length_groupBytes entry) s.length_statusHead

/-- A stream stands in the table behind the group records. -/
theorem State.block_stream {i : Nat} (inTable : i < 8) :
    streamBytes (s.stream i) <+: s.statusBytes.drop (137 + 3 * i) := by
  have entry : s.streams[i]? = some (s.stream i) := by
    have inside : i < s.streams.length := by rw [sized.2.2.1]; exact inTable
    rw [State.stream, List.getD_eq_getElem?_getD, List.getElem?_eq_getElem inside]
    rfl
  have split : s.statusBytes = s.statusHead ++ (s.groups.map groupBytes).flatten ++
      (s.streams.map streamBytes).flatten ++ (s.statusJournal ++ s.statusTail) := by
    simp only [State.statusBytes, List.append_assoc]
  rw [split]
  refine block_append (block_table (k := 3) (fun _ => rfl) entry) ?_
  rw [List.length_append, s.length_statusHead, State.length_groupTable sized]

/-- The journal stands behind the streams. -/
theorem State.block_journal : s.statusJournal <+: s.statusBytes.drop 161 := by
  refine block_append (off := 0) (List.prefix_refl _) ?_
  rw [List.length_append, List.length_append, s.length_statusHead, State.length_groupTable sized,
    State.length_streamTable sized]

/-- Reads, tags, hold-up and the fault list stand last. -/
theorem State.block_statusTail : s.statusTail <+: s.statusBytes.drop 183 := by
  rw [← List.append_nil s.statusBytes]
  refine block_append (off := 0) (List.prefix_refl _) ?_
  simp only [List.length_append, s.length_statusHead, State.length_groupTable sized,
    State.length_streamTable sized, s.length_statusJournal]

end Parts

/-- Settles O29: each part of the state is a block of the answer, and each byte stands at its place in its
block. -/
theorem readStatusReportsTheState : Obligations.ReadStatusReportsTheState := by
  unfold Obligations.ReadStatusReportsTheState
  intro s calm sized
  have answers : exec (.readStatus [0#8]) s = .next (doReadStatus [] s.begun).endEvent :=
    State.event_command_of_goodForm calm (by decide) rfl
  refine ⟨s.statusBytes, answers, State.length_statusBytes sized, ?_⟩
  intro byte link flag entries
  have linkCode : link = LinkState.code := funext fun st => by cases st <;> rfl
  have inHead : ∀ i, i < 9 → s.statusBytes[i]? = s.statusHead[i]? := fun i within =>
    (congrArg (s.statusBytes[·]?) (Nat.zero_add i).symm).trans
      (getElem?_of_block State.block_statusHead (s.length_statusHead ▸ within))
  have inJournal : ∀ i, i < 22 → s.statusBytes[161 + i]? = s.statusJournal[i]? := fun i within =>
    getElem?_of_block (State.block_journal sized) (s.length_statusJournal ▸ within)
  have journalField : ∀ i len, i + len ≤ 22 →
      fieldAt s.statusBytes (161 + i) len = fieldAt s.statusJournal i len := fun i len within =>
    fieldAt_of_block (State.block_journal sized) (s.length_statusJournal ▸ within)
  have inTail : ∀ i, i < 6 → s.statusBytes[183 + i]? = s.statusTail[i]? := fun i within =>
    getElem?_of_block (State.block_statusTail sized) (s.length_statusTail ▸ within)
  obtain ⟨head, tail, generation, serial⟩ := s.statusJournal_fields
  refine ⟨⟨?_, ?_⟩, ⟨?_, ?_, ?_, ?_, ?_, ?_⟩, fun r inTable => ?_, fun i inTable => ?_,
    ⟨?_, ?_, ?_, ?_, ?_, ?_⟩, ?_, ?_, ?_, ?_, ?_⟩
  · refine (inHead 0 (by decide)).trans (congrArg some ?_ : some (toByte s.mode.code) = _)
    cases s.mode <;> rfl
  · rw [inHead 1 (by decide), linkCode, Nat.mul_comm]
    rfl
  · exact inHead 2 (by decide)
  · exact (fieldAt_of_block State.block_statusHead (i := 3) (by rw [s.length_statusHead]; decide)).trans
      s.fieldAt_statusHead_units
  · exact inHead 5 (by decide)
  · exact inHead 6 (by decide)
  · exact (inHead 7 (by decide)).trans (congrArg entries Entry.memberIn_eq.1)
  · exact (inHead 8 (by decide)).trans (congrArg entries Entry.memberIn_eq.2)
  · have block := State.block_group sized inTable
    have inRecord : ∀ k, k < 8 → s.statusBytes[9 + 8 * r + k]? = (groupBytes (s.group? r))[k]? :=
      fun k within => getElem?_of_block block (length_groupBytes _ ▸ within)
    refine ⟨(inRecord 0 (by decide)).trans ?_, fun free k _ within => ?_, fun g live => ?_⟩
    · cases s.group? r with
      | none => rfl
      | some g =>
        obtain ⟨stream, state⟩ := g
        cases state <;> rfl
    · rw [inRecord k within, free, groupBytes_none within]
    · rw [inRecord 1 (by decide), inRecord 2 (by decide), inRecord 3 (by decide),
        fieldAt_of_block block (by rw [length_groupBytes]), live, fieldAt_groupBytes_serial]
      exact ⟨rfl, rfl, rfl, rfl⟩
  · have inStream : ∀ k, k < 3 → s.statusBytes[137 + 3 * i + k]? = (streamBytes (s.stream i))[k]? :=
      fun k within => getElem?_of_block (State.block_stream sized inTable) within
    exact ⟨inStream 0 (by decide), inStream 1 (by decide), inStream 2 (by decide)⟩
  · exact (journalField 0 6 (by decide)).trans head
  · exact (journalField 6 6 (by decide)).trans tail
  · exact (journalField 12 4 (by decide)).trans generation
  · exact inJournal 16 (by decide)
  · exact (journalField 17 4 (by decide)).trans serial
  · exact inJournal 21 (by decide)
  · exact (inTail 0 (by decide)).trans (congrArg byte s.liveReads_length)
  · exact inTail 1 (by decide)
  · exact inTail 2 (by decide)
  · exact inTail 3 (by decide)
  · exact (fieldAt_of_block (State.block_statusTail sized) (i := 4) s.length_statusTail.ge).trans
      s.fieldAt_statusTail_seq

end Sys2Proof.Machine
end

section
/-! PROOFS. The formats the part sends read back (R207 to R211, chapter 11): an anchor line, the link units,
and transaction packets, whose header and data stand between the sequence and the CRC-32. -/

namespace Sys2Proof.Machine

@[simp] theorem byteAt_zeros (n off : Nat) : byteAt (zeros n) off = 0 := by
  rw [byteAt, zeros, List.getD_eq_getElem?_getD, List.getElem?_replicate]
  split <;> rfl

@[simp] theorem fieldAt_zeros (n off len : Nat) : fieldAt (zeros n) off len = 0 := by
  have nought : ∀ k, leNat (List.replicate k 0#8) = 0 := by
    intro k
    induction k with
    | zero => rfl
    | succ k ih => rw [List.replicate_succ, leNat, ih]; rfl
  rw [fieldAt, slice, zeros, List.drop_replicate, List.take_replicate, nought]

/-! ### Anchor lines (R76, R211) -/

/-- An anchor line is a good record of its type, and reads back as its anchor while the size fits its field. -/
theorem anchorLine_reads {a : Anchor} (fits : a.size < 2 ^ 32) :
    recordGood (anchorLine a) = true ∧ byteAt (anchorLine a) 0 = 0xA3 ∧
      parseAnchor (anchorLine a) = a := by
  have size : fieldAt (leBytes 4 a.size) 0 4 = a.size := fieldAt_leBytes (by omega)
  refine ⟨recordGood_recordLine (by simp), ?_, ?_⟩
  · simp [anchorLine]
  · simp [parseAnchor, anchorLine, size]

/-! ### Link units (R154, R208, R210) -/

section Units

variable (seq : Seq) (limits : Limits)

/-- A unit under its class byte, of its size and with its own check, is read by its fields. -/
theorem parseUnit_withCrc16 {fields : List Byte} {cls size : Nat} (u : LinkUnit)
    (first : byteAt fields 0 = cls) (length : fields.length + 2 = size) (nonempty : 0 < fields.length) :
    parseUnit cls size (withCrc16 fields) (some u) = .good u := by
  have front : byteAt (withCrc16 fields) 0 = cls := by rw [withCrc16, byteAt_append_left nonempty, first]
  have whole : (withCrc16 fields).length = size := by
    rw [withCrc16, List.length_append, length_leBytes, length]
  rw [parseUnit, if_pos ⟨front, whole⟩, if_pos (crc16Good_withCrc16 fields)]
  rfl

@[simp] theorem length_limitBytes : (limitBytes limits).length = 4 := by simp [limitBytes]

/-- Limits read back from where they stand in a run of bytes. -/
theorem parseLimits_limitBytes (pre post : List Byte) :
    parseLimits (pre ++ limitBytes limits ++ post) pre.length = limits := by
  have byte : ∀ x : BitVec 8, leBytes 1 x.toNat = [x] := fun x => by simp [leBytes, toByte]
  simp [parseLimits, limitBytes, byte]

/-- The sequence of an ACK or a NAK reads back. -/
theorem unitSeq_withCrc16 (cls : Byte) : unitSeq (withCrc16 (cls :: leBytes 2 seq.toNat)) = seq := by
  simp [unitSeq, withCrc16]

theorem trainKindOf_code (kind : TrainKind) : trainKindOf (toByte kind.code).toNat = some kind := by
  cases kind <;> rfl

theorem replyOf_bitOf (reply : Bool) : replyOf (toByte (bitOf reply 1)).toNat = some reply := by
  cases reply <;> rfl

/-- The fields of an INIT read back: its training kind, its reply flag and its limits. -/
theorem initFields_unitBytes (kind : TrainKind) (reply : Bool) :
    initFields (unitBytes (.init kind reply limits)) = some (.init kind reply limits) := by
  have kindByte : byteAt (unitBytes (.init kind reply limits)) 1 = (toByte kind.code).toNat := rfl
  have replyByte : byteAt (unitBytes (.init kind reply limits)) 2 = (toByte (bitOf reply 1)).toNat := rfl
  have standing : parseLimits (unitBytes (.init kind reply limits)) 3 = limits :=
    parseLimits_limitBytes limits [0x81#8, toByte kind.code, toByte (bitOf reply 1)] _
  simp only [initFields, kindByte, trainKindOf_code, replyByte, replyOf_bitOf, standing]

theorem parseInit_unitBytes (kind : TrainKind) (reply : Bool) :
    parseInit (unitBytes (.init kind reply limits)) = .good (.init kind reply limits) := by
  rw [parseInit, initFields_unitBytes]
  exact parseUnit_withCrc16 _ rfl (by simp) (by simp)

theorem parseAck_unitBytes : parseAck (unitBytes (.ack seq)) = .good (.ack seq) := by
  rw [parseAck, unitBytes, unitSeq_withCrc16]
  exact parseUnit_withCrc16 _ rfl (by simp) (by simp)

theorem parseNak_unitBytes : parseNak (unitBytes (.nak seq)) = .good (.nak seq) := by
  rw [parseNak, unitBytes, unitSeq_withCrc16]
  exact parseUnit_withCrc16 _ rfl (by simp) (by simp)

theorem parseCredit_unitBytes : parseCredit (unitBytes (.credit limits)) = .good (.credit limits) := by
  have standing : parseLimits (unitBytes (.credit limits)) 1 = limits :=
    parseLimits_limitBytes limits [0x84#8] _
  rw [parseCredit, standing]
  exact parseUnit_withCrc16 _ rfl (by simp) (by simp)

end Units

/-! ### Transaction packets (R153, R208, R209) -/

section Packets

variable (seq : Seq) {header data : List Byte} {off len : Nat}

@[simp] theorem length_transactionBytes :
    (transactionBytes seq header data).length = header.length + data.length + 7 := by
  simp [transactionBytes, withCrc32]
  omega

/-- The sequence of a transaction packet reads back. -/
@[simp] theorem frameSeq_transactionBytes : frameSeq (transactionBytes seq header data) = seq := by
  simp [frameSeq, transactionBytes, withCrc32]

/-- A byte of the header stands three bytes on, behind the class byte and the sequence. -/
@[simp] theorem byteAt_transactionBytes (behind : 3 ≤ off) (within : off < header.length + 3) :
    byteAt (transactionBytes seq header data) off = byteAt header (off - 3) := by
  obtain ⟨i, rfl⟩ := Nat.exists_eq_add_of_le' behind
  have inHeader : i < header.length := by omega
  simp [transactionBytes, withCrc32, inHeader]

/-- A field of the header stands three bytes on, behind the class byte and the sequence. -/
@[simp] theorem fieldAt_transactionBytes (behind : 3 ≤ off) (within : off + len ≤ header.length + 3) :
    fieldAt (transactionBytes seq header data) off len = fieldAt header (off - 3) len := by
  obtain ⟨i, rfl⟩ := Nat.exists_eq_add_of_le' behind
  have inHeader : i + len ≤ header.length := by omega
  simp [transactionBytes, withCrc32, inHeader]

section Header

variable (size : header.length = 12)
include size

theorem length_transactionBytes_of_header :
    (transactionBytes seq header data).length = 19 + data.length := by
  rw [length_transactionBytes, size]
  omega

/-- The data of a transaction packet stands between its header of 12 bytes and the check. -/
theorem frameData_transactionBytes : frameData (transactionBytes seq header data) = data := by
  have front : (0x00#8 :: leBytes 2 seq.toNat ++ header).length = 15 := by simp [size]
  have content : (transactionBytes seq header data).length - 19 = data.length := by
    rw [length_transactionBytes_of_header seq size, Nat.add_sub_cancel_left]
  rw [frameData, slice, content, transactionBytes, withCrc32, List.append_assoc, List.drop_left' front,
    List.take_left]

/-- A transaction packet is undamaged where its header defines the size it has (R158, R208). -/
theorem frameGood_transactionBytes {port : Link}
    (defined : dataBytes port (transactionBytes seq header data) = some data.length) :
    frameGood port (transactionBytes seq header data) = true := by
  have class0 : byteAt (transactionBytes seq header data) 0 = 0 := rfl
  have check : crc32Good (transactionBytes seq header data) = true := crc32Good_withCrc32 _
  rw [frameGood, class0, defined, check, length_transactionBytes_of_header seq size]
  simp

end Header

/-! ### Completions (R209) -/

/-- What the header of a completion of at most 64 data bytes reads as; the bytes behind it are zero. -/
theorem completionBytes_header {c : Completion} (few : c.data.length ≤ 64) :
    byteAt (completionBytes seq c) 3 = 0x08 ∧ byteAt (completionBytes seq c) 4 = c.tag.toNat ∧
      byteAt (completionBytes seq c) 5 = c.status.code ∧
      byteAt (completionBytes seq c) 6 = c.data.length ∧
      ∀ i, 7 ≤ i → i < 15 → byteAt (completionBytes seq c) i = 0 := by
  have tag : c.tag.toNat < 256 := by omega
  have status : c.status.code < 256 := by cases c.status <;> decide
  have length : c.data.length < 256 := by omega
  refine ⟨?_, ?_, ?_, ?_, fun i behind within => ?_⟩
  · simp [completionBytes]
  · simp [completionBytes, toNat_toByte tag]
  · simp [completionBytes, toNat_toByte status]
  · simp [completionBytes, toNat_toByte length]
  · obtain ⟨k, rfl⟩ := Nat.exists_eq_add_of_le' behind
    have inHeader : k + 7 < 15 := within
    simp [completionBytes, inHeader]

/-- A completion of at most 64 data bytes is undamaged on the upper link (R158, R209). -/
theorem frameGood_completionBytes {c : Completion} (few : c.data.length ≤ 64) :
    frameGood .upper (completionBytes seq c) = true := by
  obtain ⟨kind, -, -, length, -⟩ := completionBytes_header seq few
  have completion : isCompletion (completionBytes seq c) = true := by rw [isCompletion, kind]; rfl
  have defined : dataBytes .upper (completionBytes seq c) = some c.data.length := by
    rw [dataBytes, if_pos completion, length, if_pos few]
  exact frameGood_transactionBytes seq (by simp) defined

/-! ### Lower-link requests (R169, R209) -/

section Requests

variable {kind tag length flagBits : Nat} {addr : Addr}

@[simp] theorem length_requestHeader : (requestHeader kind tag addr length flagBits).length = 12 := by
  simp [requestHeader]

/-- What the header of a request reads as, each number within its byte. -/
theorem requestHeader_reads (smallKind : kind < 256) (smallTag : tag < 256) (few : length ≤ 64)
    (smallFlags : flagBits < 256) :
    let bytes := transactionBytes seq (requestHeader kind tag addr length flagBits) data
    byteAt bytes 3 = kind ∧ byteAt bytes 4 = tag ∧ fieldAt bytes 5 5 = addr.toNat ∧
      headerLength bytes = length ∧ byteAt bytes 11 = flagBits ∧ byteAt bytes 12 = 0 ∧
      fieldAt bytes 13 2 = 0 := by
  have smallLength : length < 256 := by omega
  refine ⟨?_, ?_, ?_, ?_, ?_, ?_, ?_⟩
  · simp [requestHeader, toNat_toByte smallKind]
  · simp [requestHeader, toNat_toByte smallTag]
  · simp [requestHeader]
  · have belowTop : length % 128 = length := Nat.mod_eq_of_lt (by omega)
    simp [headerLength, requestHeader, toNat_toByte smallLength, belowTop]
  · simp [requestHeader, toNat_toByte smallFlags]
  · simp [requestHeader]
  · simp [requestHeader]

/-- The request that a packet under a request header reads as. -/
theorem parseRequest_requestHeader (smallKind : kind < 256) (smallTag : tag < 256) (few : length ≤ 64)
    (smallFlags : flagBits < 256) :
    parseRequest (transactionBytes seq (requestHeader kind tag addr length flagBits) data) =
      { kind := reqKindOf kind, tag := BitVec.ofNat 6 tag, addr := addr, length := length
        group := bitAt flagBits 0, close := bitAt flagBits 1, poison := bitAt flagBits 2
        stream := flagBits / 16 % 8, count := 0, sig := 0#16, data := data } := by
  obtain ⟨kindByte, tagByte, place, size, flags, count, sig⟩ :=
    requestHeader_reads seq (addr := addr) (data := data) smallKind smallTag few smallFlags
  simp only [parseRequest, kindByte, tagByte, place, size, flags, count, sig, BitVec.ofNat_toNat,
    BitVec.setWidth_eq, frameData_transactionBytes seq length_requestHeader]

/-- A request is undamaged on the lower link with the data its header defines: its length for a WRITE, none
for a READ and for a FENCE (R158, R209). -/
theorem frameGood_requestHeader (request : kind = 1 ∨ kind = 2 ∨ kind = 3) (smallTag : tag < 256)
    (few : length ≤ 64) (smallFlags : flagBits < 256)
    (carried : data.length = if kind = 2 then length else 0) :
    frameGood .lower (transactionBytes seq (requestHeader kind tag addr length flagBits) data) = true := by
  obtain ⟨kindByte, -, -, size, -⟩ := requestHeader_reads seq (kind := kind) (addr := addr) (data := data)
    (by omega) smallTag few smallFlags
  refine frameGood_transactionBytes seq length_requestHeader ?_
  simp only [dataBytes, isCompletion, kindByte, size, carried]
  obtain rfl | rfl | rfl := request
  · simp
  · simp [few]
  · simp

end Requests

/-- A write of at most 64 data bytes is undamaged and reads back but for its tag (log 36). -/
theorem requestBytes_write_reads {kind : WriteKind} {addr : Addr} {poison : Bool} (few : data.length ≤ 64) :
    let bytes := requestBytes seq (.write kind addr data poison)
    frameGood .lower bytes = true ∧ byteAt bytes 3 = 2 ∧ byteAt bytes 11 = (if poison then 4 else 0) ∧
      { parseRequest bytes with tag := 0#6 } =
        { kind := .write, tag := 0#6, addr := addr, length := data.length, group := false
          close := false, poison := poison, stream := 0, count := 0, sig := 0#16, data := data } := by
  have freeTag : (Config.lowerWriteTag seq.toNat).toNat < 256 := BitVec.isLt _
  have smallFlags : bitOf poison 4 < 256 := by cases poison <;> decide
  obtain ⟨kindByte, -, -, -, flags, -⟩ := requestHeader_reads seq (kind := 2) (addr := addr) (data := data)
    (by decide) freeTag few smallFlags
  refine ⟨frameGood_requestHeader seq (by decide) freeTag few smallFlags rfl, kindByte, flags, ?_⟩
  rw [requestBytes, parseRequest_requestHeader seq (by decide) freeTag few smallFlags]
  cases poison <;> rfl

/-- A read of at most 64 bytes is undamaged and reads back. -/
theorem requestBytes_read_reads {addr : Addr} {length tag : Nat} (few : length ≤ 64) (lowerTag : tag < 32) :
    let bytes := requestBytes seq (.read addr length tag)
    frameGood .lower bytes = true ∧ byteAt bytes 3 = 1 ∧ byteAt bytes 4 = tag ∧ byteAt bytes 11 = 0 ∧
      parseRequest bytes =
        { kind := .read, tag := BitVec.ofNat 6 tag, addr := addr, length := length, group := false
          close := false, poison := false, stream := 0, count := 0, sig := 0#16, data := [] } := by
  have smallTag : tag < 256 := by omega
  obtain ⟨kindByte, tagByte, -, -, flags, -⟩ := requestHeader_reads seq (kind := 1) (flagBits := 0)
    (addr := addr) (data := []) (by decide) smallTag few (by decide)
  exact ⟨frameGood_requestHeader seq (by decide) smallTag few (by decide) rfl, kindByte, tagByte, flags,
    parseRequest_requestHeader seq (by decide) smallTag few (by decide)⟩

/-- A fence is undamaged, carries its tag and is zero behind it. -/
theorem requestBytes_fence_reads {tag : Nat} (lowerTag : tag < 32) :
    let bytes := requestBytes seq (.fence tag)
    frameGood .lower bytes = true ∧ byteAt bytes 3 = 3 ∧ byteAt bytes 4 = tag ∧
      ∀ i, 5 ≤ i → i < 15 → byteAt bytes i = 0 := by
  have smallTag : tag < 256 := by omega
  obtain ⟨kindByte, tagByte, -⟩ := requestHeader_reads seq (kind := 3) (length := 0) (flagBits := 0)
    (addr := 0#40) (data := []) (by decide) smallTag (by decide) (by decide)
  refine ⟨frameGood_requestHeader seq (by decide) smallTag (by decide) (by decide) rfl, kindByte, tagByte,
    fun i behind within => ?_⟩
  obtain ⟨k, rfl⟩ := Nat.exists_eq_add_of_le' behind
  have header : requestHeader 3 tag 0#40 0 0 = [toByte 3, toByte tag] ++ zeros 10 := rfl
  have inHeader : k + 5 < 15 := within
  simp [requestBytes, header, inHeader]

end Packets

/-- Settles O55, format by format: what each reads as, its size, and its sequence. -/
theorem sentFormatsReadBack : Obligations.SentFormatsReadBack := by
  unfold Obligations.SentFormatsReadBack
  refine ⟨fun a fits => ⟨length_anchorLine a, anchorLine_reads fits⟩, fun kind reply limits seq => ?units,
    fun seq c few => ?completion, fun seq kind addr data poison few => ?write,
    fun seq addr length tag few lowerTag => ?read, fun seq tag lowerTag => ?fence⟩
  case units =>
    exact ⟨parseInit_unitBytes limits kind reply, parseAck_unitBytes seq, parseNak_unitBytes seq,
      parseCredit_unitBytes limits⟩
  case completion =>
    obtain ⟨kind, tag, status, length, rest⟩ := completionBytes_header seq few
    refine ⟨length_transactionBytes_of_header seq (by simp), frameGood_completionBytes seq few,
      frameSeq_transactionBytes seq, kind, tag, status.trans ?_, length, rest,
      frameData_transactionBytes seq (by simp)⟩
    cases c.status <;> rfl
  case write =>
    obtain ⟨good, reads⟩ := requestBytes_write_reads seq (kind := kind) (addr := addr) (poison := poison) few
    exact ⟨length_transactionBytes_of_header seq length_requestHeader, good, frameSeq_transactionBytes seq,
      reads⟩
  case read =>
    obtain ⟨good, reads⟩ := requestBytes_read_reads seq (addr := addr) few lowerTag
    exact ⟨length_transactionBytes_of_header seq length_requestHeader, good, frameSeq_transactionBytes seq,
      reads⟩
  case fence =>
    obtain ⟨good, reads⟩ := requestBytes_fence_reads seq lowerTag
    exact ⟨length_transactionBytes_of_header seq length_requestHeader, good, frameSeq_transactionBytes seq,
      reads⟩

end Sys2Proof.Machine
end

section
/-! PROOFS. The step by its queue of commands (95_what_each_step_holds.md; log 3). -/

namespace Sys2Proof.Machine

variable {s : State}

/-- Every field of the state but the queue reaches the command as it stands. -/
theorem step_of_front {c : Instr} {rest : List Instr} (front : s.pending = c :: rest) :
    step s = exec c { s with pending := rest } := by
  rw [step, front]

/-- With nothing waiting a step is no event (log 3). -/
theorem step_of_empty (empty : s.pending = []) : step s = .next s := by
  rw [step, empty]

/-- Settles O1, by the two forms of the queue. -/
theorem stepRunsFrontCommand : Obligations.StepRunsFrontCommand :=
  ⟨fun _ _ _ => step_of_front rfl, fun _ empty => step_of_empty empty⟩

end Sys2Proof.Machine
end
